-- ==== Sys2Proof/Word.lean ====
section
/-! DEFINITION. The words of the Wire Codec Block: bytes, 16-bit words, field values, and the names of its
numeric representations (00_scope.md R10, R11; 41_field.md R120). -/

namespace Sys2Proof

/-- A byte of a buffer (00_scope.md R11). -/
abbrev Byte := BitVec 8

/-- A 16-bit word: the CRC accumulator, a sequence number, an error's detail word. -/
abbrev Half := BitVec 16

/-- The 64-bit raw pattern of the VAL port (10_state.md R29). -/
abbrev Val := BitVec 64

/-- A buffer: a finite sequence of bytes, offset 0 first on the wire (00_scope.md R11). -/
abbrev Buffer := List Byte

/-- The data types a channel may have (30_encoding.md R75), in the order the spec lists them. -/
inductive DataType where
  | int
  | uint
  | float
  | command
deriving DecidableEq, Repr

/-- The ten fixed-width numeric representations (41_field.md R120). -/
inductive Kind where
  | u8 | u16 | u32 | u64
  | i8 | i16 | i32 | i64
  | f32 | f64
deriving DecidableEq, Repr

end Sys2Proof
end

