-- ==== Sys2Proof/Syntax.lean ====
section
/-! DEFINITION. What the host can ask of the block: one constructor of `Instr` for each of the 36 rows of
spec/opcode_table.json, and the items the host presents. -/

namespace Sys2Proof

/-- One row of spec/opcode_table.json each. The first fifteen are the command codes of 30_encoding.md R82 with
their operand ports (10_state.md R28). The next sixteen are the kind map (30_encoding.md R80): a cfg1 byte with
its msg_type field. The last five are the packet shapes (30_encoding.md R72, R78) with every field the format
leaves free. -/
inductive Instr where
  | crcInit
  | crcUpd (byte : Byte)
  | crcFin
  | crc16 (buf : Buffer)
  | getp (size : BitVec 4) (dt : BitVec 2)
  | parse (buf : Buffer) (dt : BitVec 2)
  | genp (dt : BitVec 2) (size : BitVec 4) (val : Val)
  | u16pk (v32 : BitVec 32)
  | u16up (b0 b1 : Byte)
  | enc (seq mt : BitVec 32) (val : Val)
  | fsEnc
  | dec (buf : Buffer)
  | fsDec (buf : Buffer)
  | rxByte (byte : Byte)
  | rxFlush
  | cfg1Int1 (mtf : BitVec 4)
  | cfg1Uint1 (mtf : BitVec 4)
  | cfg1Float1 (mtf : BitVec 4)
  | cfg1Command1 (mtf : BitVec 4)
  | cfg1Int2 (mtf : BitVec 4)
  | cfg1Uint2 (mtf : BitVec 4)
  | cfg1Float2 (mtf : BitVec 4)
  | cfg1Command2 (mtf : BitVec 4)
  | cfg1Int4 (mtf : BitVec 4)
  | cfg1Uint4 (mtf : BitVec 4)
  | cfg1Float4 (mtf : BitVec 4)
  | cfg1Command4 (mtf : BitVec 4)
  | cfg1Int8 (mtf : BitVec 4)
  | cfg1Uint8 (mtf : BitVec 4)
  | cfg1Float8 (mtf : BitVec 4)
  | cfg1Command8 (mtf : BitVec 4)
  | spPkt1 (verb0 verb1 : Byte) (seq : Half) (mtf : BitVec 4) (dtf : BitVec 2) (cfg2 : Byte) (payload : BitVec 8) (crcf : Half)
  | spPkt2 (verb0 verb1 : Byte) (seq : Half) (mtf : BitVec 4) (dtf : BitVec 2) (cfg2 : Byte) (payload : BitVec 16) (crcf : Half)
  | spPkt4 (verb0 verb1 : Byte) (seq : Half) (mtf : BitVec 4) (dtf : BitVec 2) (cfg2 : Byte) (payload : BitVec 32) (crcf : Half)
  | spPkt8 (verb0 verb1 : Byte) (seq : Half) (mtf : BitVec 4) (dtf : BitVec 2) (cfg2 : Byte) (payload : BitVec 64) (crcf : Half)
  | fsPkt (verb0 verb1 lenb : Byte) (flds : List (BitVec 32)) (crcf : Half)
deriving DecidableEq, Repr

/-- What the host can present between two operations (10_state.md R37; log 4, log 7). -/
inductive Input where
  /-- A request: the OP byte and then the bytes of its operands (30_encoding.md R82; log 8). -/
  | request (bytes : Buffer)
  /-- A cfg1 byte for the kind map (30_encoding.md R80). -/
  | cfg1 (byte : Byte)
  /-- A whole received frame for the single-packet decoder (30_encoding.md R71). -/
  | spFrame (bytes : Buffer)
  /-- A whole received frame for the float-sequence decoder (30_encoding.md R71). -/
  | fsFrame (bytes : Buffer)
  /-- The reset input (70_reset_and_hazards.md R240). -/
  | reset
deriving DecidableEq, Repr

/-- Why an item is no request of the spec (log 6). -/
inductive Reject where
  /-- A request without an OP byte. -/
  | emptyRequest
  /-- The operands of this command code are cut short. -/
  | truncated (op : Byte)
  /-- An operand has a bit set above the width of its port (10_state.md R28). -/
  | operandTooWide (op : Byte)
  /-- A frame longer than BUF_CAP (93_implementation_defined.md U19). -/
  | bufferTooLong
deriving DecidableEq, Repr

/-- What the block reads from an item: an instruction, a command code of no operation, the reset input, or
nothing the spec gives a meaning. -/
inductive Reading where
  | instr (i : Instr)
  | illegalOp (op : Byte)
  | reset
  | bad (r : Reject)
deriving DecidableEq, Repr

end Sys2Proof
end

