-- ==== Sys2Proof/Machine/State.lean ====
section
/-! DEFINITION. The state of one instance as plain data (10_state.md R20), its responses (R36; 60_exceptions.md
R211, R213), why a step can stop, and the state after reset (10_state.md R38). -/

namespace Sys2Proof.Machine

/-! ## The configuration record (10_state.md R21 to R26) -/

/-- An entry of the channel table (10_state.md R22). -/
structure ChEntry where
  /-- The data type, as a code of DT_CODE. -/
  dt : BitVec 2
  /-- `size_bytes`, 0 to 15: illegal sizes can be held. -/
  size : BitVec 4
  /-- The secondary configuration byte. -/
  cfg2 : Byte
deriving DecidableEq, Repr

/-- Which decoder the splitter hands a frame to (10_state.md R25). -/
inductive Mode where
  | sp
  | fs
deriving DecidableEq, Repr

/-- The configuration record: bound when the instance is built, written by no operation (10_state.md R26). -/
structure Cfg where
  /-- The protocol version pair (10_state.md R21). -/
  ver0 : Byte
  /-- The protocol version pair (10_state.md R21). -/
  ver1 : Byte
  /-- The configured slots of the channel table `CH`, by slot; a slot not listed is none (10_state.md R22; log 2). -/
  ch : List (Byte × ChEntry)
  /-- The float-sequence tags `FS_CH`; `FS_K` is their number (10_state.md R24; log 2). -/
  fsCh : List Byte
  /-- `MODE` (10_state.md R25). -/
  mode : Mode
deriving DecidableEq, Repr

/-! ## Responses -/

/-- The errors (60_exceptions.md R211), in the order of their codes. -/
inductive ErrName where
  | unsupportedSize
  | noParserForCombination
  | u16OutOfRange
  | valueOutOfRange
  | unknownMsgType
  | msgTypeOverflow
  | packetTooSmall
  | invalidPacketSizeByte
  | invalidVersionBytes
  | invalidCRC16
  | invalidDataTypeBits
  | invalidDataLengthBits
  | invalidMsgTypeBits
  | invalidPacketSize
  | notImplemented
  | rxOverflow
  | illegalOp
deriving DecidableEq, Repr

/-- What an operation, or a step inside one, answers: `ok(v)` or `err(E, d0, d1)` (00_scope.md R13). -/
inductive Result (α : Type) where
  | ok (v : α)
  | err (e : ErrName) (d0 d1 : Half)
deriving DecidableEq, Repr

/-- The message record `MSG` (10_state.md R36); a field that one decoder does not give is an `Option`. -/
structure Msg where
  seq : Half
  mt : Byte
  dt : BitVec 2
  size : BitVec 4
  kind : Kind
  cfg2 : Byte
  raw : Buffer
  val : Val
  /-- `RVAL`, given by FS.DEC. -/
  rval : Option (BitVec 64)
  /-- `ENTRY`, given by DEC. -/
  entry : Option ChEntry
deriving DecidableEq, Repr

/-- What a decoder answers with: one record, or one record for each float-sequence field. -/
inductive Decoded where
  | single (m : Msg)
  | sequence (ms : List Msg)
deriving DecidableEq, Repr

/-- What a success response carries (30_encoding.md R85). -/
inductive Payload where
  | done
  | u16 (v : Half)
  | kind (k : Kind)
  | value (k : Kind) (v : Val)
  | bytes (b : Buffer)
  | decoded (d : Decoded)
  | noFrame
  | frame (r : Result Decoded)
  /-- A row of the kind map (30_encoding.md R80; log 7): msg_type, data type code, size, kind. -/
  | cfg1 (mtf : BitVec 4) (dt : BitVec 2) (size : BitVec 4) (k : Kind)
deriving DecidableEq, Repr

/-- The response of an operation (60_exceptions.md R213; its words STATUS, D0, D1 are in Flags.lean). -/
abbrev Response := Result Payload

/-! ## The state -/

/-- The state of one instance (10_state.md R20). -/
structure State where
  /-- The configuration record. -/
  cfg : Cfg
  /-- The CRC accumulator `CRC` (10_state.md R30). -/
  crc : Half
  /-- The splitter's bytes `RXB[0:RXN)`; `RXN` is their number (10_state.md R31; log 3). -/
  rxb : Buffer
  /-- The model's own: what the host will present, first item first (log 4). -/
  pending : List Input
  /-- The response of the operation just answered, none when the block has answered nothing or idles (log 5). -/
  response : Option Response
deriving DecidableEq, Repr

/-! ## Why a step can stop -/

/-- Faults: none. The spec has no fatal error and nothing that stops the block from taking the next request
(60_exceptions.md R212); an error is a response, and the step that answers it has a next state. Nobody raises a
fault; that is safe. -/
inductive Fault where
deriving DecidableEq, Repr

/-- Refusals: an item the spec gives no meaning. -/
inductive Refusal where
  /-- Raised by an arm of `exec` whose instruction has no meaning yet; there is none. Safe: the model stops. -/
  | notModelled (mnemonic : String)
  /-- Raised by `step` on an item that is no request of the spec: cut short, an operand wider than its port, a
  frame longer than BUF_CAP (93_implementation_defined.md U19; log 6). Safe: the model stops. -/
  | malformed (r : Reject)
deriving DecidableEq, Repr

/-! ## Reset (10_state.md R38; 70_reset_and_hazards.md R240) -/

/-- A freshly built instance with this configuration: the accumulator holds the seed, the splitter is empty, no
operation is in progress (10_state.md R38). -/
def State.boot (cfg : Cfg) : State where
  cfg := cfg
  crc := 0xFFFF
  rxb := []
  pending := []
  response := none

/-- The configuration record of `State.reset`. The spec gives no device's values (93_implementation_defined.md
U22): DESIGN CHOICE, unsafe, log 1. -/
def Cfg.unbound : Cfg where
  ver0 := 0
  ver1 := 0
  ch := []
  fsCh := []
  mode := .sp

/-- The machine right after reset. -/
def State.reset : State :=
  State.boot Cfg.unbound

end Sys2Proof.Machine
end

