-- ==== Sys2Proof/Machine/Flags.lean ====
section
/-! DEFINITION. The block has no flags or condition codes (10_state.md R27). What a response carries instead: the
status code and two detail words (60_exceptions.md R211 to R213). -/

namespace Sys2Proof.Machine

/-- An error's class (60_exceptions.md R212); it changes nothing in the block's behaviour. -/
inductive ErrClass where
  | domain
  | format
deriving DecidableEq, Repr

/-- An error's code (60_exceptions.md R211). -/
def errCode : ErrName → Byte
  | .unsupportedSize => 1
  | .noParserForCombination => 2
  | .u16OutOfRange => 3
  | .valueOutOfRange => 4
  | .unknownMsgType => 5
  | .msgTypeOverflow => 6
  | .packetTooSmall => 7
  | .invalidPacketSizeByte => 8
  | .invalidVersionBytes => 9
  | .invalidCRC16 => 10
  | .invalidDataTypeBits => 11
  | .invalidDataLengthBits => 12
  | .invalidMsgTypeBits => 13
  | .invalidPacketSize => 14
  | .notImplemented => 15
  | .rxOverflow => 16
  | .illegalOp => 17

/-- An error's class (60_exceptions.md R211). -/
def errClass : ErrName → ErrClass
  | .unsupportedSize => .domain
  | .noParserForCombination => .domain
  | .u16OutOfRange => .domain
  | .valueOutOfRange => .domain
  | .unknownMsgType => .domain
  | .msgTypeOverflow => .domain
  | .packetTooSmall => .format
  | .invalidPacketSizeByte => .format
  | .invalidVersionBytes => .format
  | .invalidCRC16 => .format
  | .invalidDataTypeBits => .format
  | .invalidDataLengthBits => .format
  | .invalidMsgTypeBits => .format
  | .invalidPacketSize => .format
  | .notImplemented => .domain
  | .rxOverflow => .format
  | .illegalOp => .domain

/-- `STATUS` of a response: the error's code, 0 on success (60_exceptions.md R213). -/
def status : Response → Byte
  | .ok _ => 0
  | .err e _ _ => errCode e

/-- `D0` of a response: zero on success (60_exceptions.md R213). -/
def detail0 : Response → Half
  | .ok _ => 0
  | .err _ d0 _ => d0

/-- `D1` of a response: zero on success (60_exceptions.md R213). -/
def detail1 : Response → Half
  | .ok _ => 0
  | .err _ _ d1 => d1

end Sys2Proof.Machine
end

