-- ==== Sys2Proof/Config.lean ====
section
/-! DEFINITION. The parameters the spec names (00_scope.md R8) as one record, and the values it leaves open as
opaque constants. The values the spec takes for the parameters are in Machine/Params.lean. -/

namespace Sys2Proof

/-- `CFG1_LAYOUT`: which end of the cfg1 byte is bit 0 (30_encoding.md R74). -/
inductive Cfg1Layout where
  | lsb0
  | msb0
deriving DecidableEq, Repr

/-- `COMMAND_KIND`: the representation of a COMMAND field (41_field.md R122). -/
inductive CommandKind where
  | asUint     -- the kinds of UINT
  | noParser   -- every size is refused with NoParserForCombination
deriving DecidableEq, Repr

/-- The parameters of the spec that an operation depends on (00_scope.md R8). Every operation takes them as an
argument, so that a claim can be stated for any value of them (93_implementation_defined.md U1, U6, U11, U16,
U17). This is no part of the state. -/
structure Params where
  /-- The 256-entry CRC table `T` (40_crc.md R101). -/
  table : Byte → Half
  /-- `CFG1_LAYOUT`. -/
  layout : Cfg1Layout
  /-- `DT_CODE`: the 2-bit code of each data type (30_encoding.md R75). -/
  dtCode : DataType → BitVec 2
  /-- `COMMAND_KIND`. -/
  commandKind : CommandKind
  /-- `ROUND2` (43_deframer.md R186). -/
  round2 : BitVec 32 → BitVec 64

/-- `ROUND2`, the float-sequence rounding to 2 decimals: OPEN in the spec, a total function from a binary32
pattern to a binary64 pattern (43_deframer.md R186; log 9). No body: nothing can be proved of its values. -/
opaque Config.round2 : BitVec 32 → BitVec 64

/-- The byte a read at an offset outside its buffer would give. The spec defines no such read (00_scope.md R12)
and no operation makes one (20_memory.md R55); log 10. No body. -/
opaque Config.freeByte : Nat → Byte

end Sys2Proof
end

