-- ==== Sys2Proof/Machine/Bytes.lean ====
section
/-! DEFINITION. Buffers: reading and writing little-endian fields (00_scope.md R11, R12; 20_memory.md R50), and
the offset maps of the two packet formats (30_encoding.md R72, R74, R78). -/

namespace Sys2Proof.Machine

/-- `buf[i]` (00_scope.md R11). Outside the buffer the spec defines no value: a free byte. -/
def byteAt (buf : Buffer) (i : Nat) : Byte :=
  buf.getD i (Config.freeByte i)

/-- `buf[a:b)` (00_scope.md R11). -/
def slice (buf : Buffer) (a b : Nat) : Buffer :=
  (buf.drop a).take (b - a)

/-- The bytes at offsets `off` to `off + n - 1`. -/
def bytesAt (buf : Buffer) (off : Nat) : Nat → Buffer
  | 0 => []
  | n + 1 => byteAt buf off :: bytesAt buf (off + 1) n

/-- The number whose little-endian bytes these are (20_memory.md R50). -/
def leNat : Buffer → Nat
  | [] => 0
  | b :: bs => b.toNat + 256 * leNat bs

/-- The `n` little-endian bytes of a number (20_memory.md R50). -/
def leBytes : Nat → Nat → Buffer
  | 0, _ => []
  | n + 1, v => BitVec.ofNat 8 v :: leBytes n (v / 256)

/-- `MemRead(buf, off, n)` (00_scope.md R12). -/
def memRead (buf : Buffer) (off n : Nat) : BitVec (8 * n) :=
  BitVec.ofNat (8 * n) (leNat (bytesAt buf off n))

/-- `MemWrite(buf, off, n, v)` (00_scope.md R12): the buffer after it. -/
def memWrite (buf : Buffer) (off n : Nat) (v : BitVec (8 * n)) : Buffer :=
  buf.take off ++ leBytes n v.toNat ++ buf.drop (off + n)

/-- A new buffer of `n` bytes; every user overwrites all of it. -/
def newBuffer (n : Nat) : Buffer :=
  List.replicate n 0

/-- A natural number as a 16-bit detail word (60_exceptions.md R213). -/
def half (n : Nat) : Half :=
  BitVec.ofNat 16 n

/-- The terminator bytes, in wire order (00_scope.md R6). -/
def term0 : Byte := 0x0D

/-- The terminator bytes, in wire order (00_scope.md R6). -/
def term1 : Byte := 0x0A

/-- `SP_OVERHEAD`: the single-packet bytes other than the payload (00_scope.md R6). -/
def spOverhead : Nat := 11

/-- `FS_OVERHEAD`: the float-sequence bytes other than the fields (00_scope.md R6). -/
def fsOverhead : Nat := 7

/-- `FS_FIELD`: bytes of one float-sequence field (00_scope.md R6). -/
def fsField : Nat := 4

/-- `BUF_CAP`: the largest buffer the block holds (00_scope.md R8). -/
def bufCap : Nat := 255

/-- `MT_WIRE_MAX`: the largest msg_type the single-packet format carries (00_scope.md R6). -/
def mtWireMax : Nat := 15

/-- The length of a float-sequence packet of `k` fields (30_encoding.md R70). -/
def fsLength (k : Nat) : Nat :=
  fsOverhead + fsField * k

/-- The cfg1 byte of the three fields (30_encoding.md R74). -/
def cfg1Pack (layout : Cfg1Layout) (mtf : BitVec 4) (szf dtf : BitVec 2) : Byte :=
  match layout with
  | .lsb0 => (mtf ++ szf ++ dtf).setWidth 8
  | .msb0 => (dtf ++ szf ++ mtf).setWidth 8

/-- `DTF` of a cfg1 byte (30_encoding.md R74). -/
def cfg1Dtf (layout : Cfg1Layout) (b : Byte) : BitVec 2 :=
  match layout with
  | .lsb0 => b.extractLsb' 0 2
  | .msb0 => b.extractLsb' 6 2

/-- `SZF` of a cfg1 byte (30_encoding.md R74). -/
def cfg1Szf (layout : Cfg1Layout) (b : Byte) : BitVec 2 :=
  match layout with
  | .lsb0 => b.extractLsb' 2 2
  | .msb0 => b.extractLsb' 4 2

/-- `MTF` of a cfg1 byte (30_encoding.md R74). -/
def cfg1Mtf (layout : Cfg1Layout) (b : Byte) : BitVec 4 :=
  match layout with
  | .lsb0 => b.extractLsb' 4 4
  | .msb0 => b.extractLsb' 0 4

/-- The size a size field stands for, by "exponentiating" (30_encoding.md R76). -/
def sizeOfSzf (szf : BitVec 2) : Nat :=
  1 <<< szf.toNat

/-- `log2(size_bytes)`, none for a size that has no code (30_encoding.md R76; 42_framer.md R152 step 3b). -/
def szfOfSize (n : Nat) : Option (BitVec 2) :=
  if n = 1 then some 0
  else if n = 2 then some 1
  else if n = 4 then some 2
  else if n = 8 then some 3
  else none

/-- The bytes of a single packet before its CRC (30_encoding.md R72): version pair, length byte, sequence
number, cfg1, cfg2, payload. -/
def spBody (verb0 verb1 lenb : Byte) (seqBytes : Buffer) (cfg1 cfg2 : Byte) (payload : Buffer) : Buffer :=
  [verb0, verb1, lenb] ++ seqBytes ++ [cfg1, cfg2] ++ payload

/-- The bytes of a float-sequence packet before its CRC (30_encoding.md R78). -/
def fsBody (verb0 verb1 lenb : Byte) (flds : List (BitVec 32)) : Buffer :=
  [verb0, verb1, lenb] ++ flds.flatMap (fun f => leBytes 4 f.toNat)

/-- A body and its trailer: CRC, low byte first, then the terminator (30_encoding.md R77). -/
def withTrailer (body : Buffer) (crcf : Half) : Buffer :=
  body ++ leBytes 2 crcf.toNat ++ [term0, term1]

/-- The wire bytes of the table's rows SP.PKT1 to SP.PKT8 (30_encoding.md R72), for an `n`-byte payload. -/
def spWire (verb0 verb1 : Byte) (n : Nat) (seq : Half) (cfg1 cfg2 : Byte) (payload : Nat) (crcf : Half) : Buffer :=
  withTrailer
    (spBody verb0 verb1 (BitVec.ofNat 8 (spOverhead + n)) (leBytes 2 seq.toNat) cfg1 cfg2 (leBytes n payload)) crcf

/-- The wire bytes of the table's row FS.PKT (30_encoding.md R78). -/
def fsWire (verb0 verb1 lenb : Byte) (flds : List (BitVec 32)) (crcf : Half) : Buffer :=
  withTrailer (fsBody verb0 verb1 lenb flds) crcf

end Sys2Proof.Machine
end

