-- ==== Sys2Proof/Machine/Operands.lean ====
section
/-! DEFINITION. Operand forms: kinds, the 64-bit form of a field value, the predicate `fits`, and the lookups an
operand goes through (41_field.md R120, R121, R125; 10_state.md R22, R29; 30_encoding.md R75). -/

namespace Sys2Proof.Machine

/-- `bytes(kind)` (41_field.md R120). -/
def Kind.bytes : Kind → Nat
  | .u8 => 1
  | .u16 => 2
  | .u32 => 4
  | .u64 => 8
  | .i8 => 1
  | .i16 => 2
  | .i32 => 4
  | .i64 => 8
  | .f32 => 4
  | .f64 => 8

/-- The signed kinds, I8 to I64 (41_field.md R120). -/
def Kind.signed : Kind → Bool
  | .u8 => false
  | .u16 => false
  | .u32 => false
  | .u64 => false
  | .i8 => true
  | .i16 => true
  | .i32 => true
  | .i64 => true
  | .f32 => false
  | .f64 => false

/-- The VAL form of a pattern of `n` bytes: sign-extended for an I kind, else zero-extended (10_state.md R29). -/
def valForm (k : Kind) {n : Nat} (p : BitVec (8 * n)) : Val :=
  if Kind.signed k then p.signExtend 64 else p.setWidth 64

/-- `fits(kind, VAL)` (41_field.md R125): no bit above the pattern for a U kind and F32, every bit from the
pattern's top bit up equal for an I kind, nothing to test for F64. -/
def fits (k : Kind) (v : Val) : Bool :=
  if Kind.signed k then
    v.sshiftRight (8 * Kind.bytes k - 1) == 0 || v.sshiftRight (8 * Kind.bytes k - 1) == BitVec.allOnes 64
  else v >>> (8 * Kind.bytes k) == 0

/-- The data type a 2-bit code stands for, none for a code of no type (30_encoding.md R75; 43_deframer.md
R176). -/
def dataTypeOf (p : Params) (code : BitVec 2) : Option DataType :=
  [DataType.int, .uint, .float, .command].find? (fun t => p.dtCode t == code)

/-- The integer kinds by size; other sizes give none. -/
def unsignedKind : Nat → Option Kind
  | 1 => some .u8
  | 2 => some .u16
  | 4 => some .u32
  | 8 => some .u64
  | _ => none

/-- The integer kinds by size; other sizes give none. -/
def signedKind : Nat → Option Kind
  | 1 => some .i8
  | 2 => some .i16
  | 4 => some .i32
  | 8 => some .i64
  | _ => none

/-- The float kinds by size; sizes 1 and 2 give none. -/
def floatKind : Nat → Option Kind
  | 4 => some .f32
  | 8 => some .f64
  | _ => none

/-- The kind of a legal size and a data type, none where no parser exists (41_field.md R121, R122). -/
def kindFor (p : Params) (size : Nat) : DataType → Option Kind
  | .int => signedKind size
  | .uint => unsignedKind size
  | .float => floatKind size
  | .command =>
    match p.commandKind with
    | .asUint => unsignedKind size
    | .noParser => none

/-- `size_bytes` is one of 1, 2, 4, 8 (00_scope.md R6). -/
def legalSize (n : Nat) : Bool :=
  n == 1 || n == 2 || n == 4 || n == 8

/-- `kind_of(size, dt)` (41_field.md R121): the size is tested first. A code of no data type cannot occur with
the DT_CODE taken (93_implementation_defined.md U15; log 15). -/
def kindOf (p : Params) (size : Nat) (dt : BitVec 2) : Result Kind :=
  if legalSize size then
    match dataTypeOf p dt with
    | none => .err .invalidDataTypeBits (dt.setWidth 16) 0
    | some t =>
      match kindFor p size t with
      | some k => .ok k
      | none => .err .noParserForCombination (half size) (dt.setWidth 16)
  else .err .unsupportedSize (half size) 0

/-- `CH[m]` for an integer `m`; none outside 0 to 255 (10_state.md R22). -/
def channel (cfg : Cfg) (m : Int) : Option ChEntry :=
  if 0 ≤ m ∧ m ≤ 255 then cfg.ch.lookup (BitVec.ofInt 8 m) else none

/-- `FS_K` (10_state.md R24). -/
def Cfg.fsK (cfg : Cfg) : Nat :=
  cfg.fsCh.length

/-- `RXN` (10_state.md R31). -/
def State.rxn (s : State) : Nat :=
  s.rxb.length

end Sys2Proof.Machine
end

