-- ==== Sys2Proof/Machine/Ops.lean ====
section
/-! DEFINITION. The operations the instructions share: the CRC, the field unit, the two decoders, the splitter,
answering a request and reporting an error, reset. -/

namespace Sys2Proof.Machine

/-! ## CRC (40_crc.md) -/

/-- `crc_step(c, b)` (40_crc.md R102). -/
def crcStep (p : Params) (c : Half) (b : Byte) : Half :=
  (c >>> 8) ^^^ p.table ((c ^^^ b.setWidth 16).setWidth 8)

/-- The accumulator after the bytes of a buffer, in ascending order (40_crc.md R106). -/
def crcRun (p : Params) (c : Half) (buf : Buffer) : Half :=
  buf.foldl (crcStep p) c

/-- The finished CRC of an accumulator (40_crc.md R105). -/
def crcFinish (c : Half) : Half :=
  ~~~c &&& crcXorOut

/-- `crc16(buf)` (40_crc.md R106). -/
def crc16 (p : Params) (buf : Buffer) : Half :=
  crcFinish (crcRun p crcSeed buf)

/-! ## Field unit (41_field.md) -/

/-- `parse(buf, dt)` (41_field.md R126): the kind and the value in its VAL form. -/
def parse (p : Params) (buf : Buffer) (dt : BitVec 2) : Result (Kind × Val) :=
  match kindOf p buf.length dt with
  | .ok k => .ok (k, valForm k (memRead buf 0 buf.length))
  | .err e d0 d1 => .err e d0 d1

/-- `gen_payload(dt, size, val)` (41_field.md R128). -/
def genPayload (p : Params) (dt : BitVec 2) (size : Nat) (val : Val) : Result Buffer :=
  match kindOf p size dt with
  | .ok k =>
    if fits k val then .ok (memWrite (newBuffer size) 0 size (val.setWidth (8 * size)))
    else .err .valueOutOfRange (half size) (dt.setWidth 16)
  | .err e d0 d1 => .err e d0 d1

/-- `u16_pack(v)` (41_field.md R130). -/
def u16Pack (v : BitVec 32) : Result Buffer :=
  if v.toInt < 0 ∨ v.toInt > 65535 then .err .u16OutOfRange (v.extractLsb' 0 16) (v.extractLsb' 16 16)
  else .ok [v.extractLsb' 0 8, v.extractLsb' 8 8]

/-- `u16_unpack(b0, b1)` (41_field.md R131). -/
def u16Unpack (b0 b1 : Byte) : Half :=
  b1 ++ b0

/-! ## Decoders (43_deframer.md) -/

/-- The checks both decoders make on the length byte, the version bytes and the CRC, in their order
(43_deframer.md R172 to R174, R182 to R184), before the rest `k` of the decode. -/
def checkedFrame {α : Type} (p : Params) (cfg : Cfg) (buf : Buffer) (k : Result α) : Result α :=
  if buf.length ≠ (byteAt buf 2).toNat then
    .err .invalidPacketSizeByte (half buf.length) ((byteAt buf 2).setWidth 16)
  else if byteAt buf 0 ≠ cfg.ver0 ∨ byteAt buf 1 ≠ cfg.ver1 then
    .err .invalidVersionBytes (byteAt buf 1 ++ byteAt buf 0) (cfg.ver1 ++ cfg.ver0)
  else if crc16 p (slice buf 0 (buf.length - 4)) ≠ (memRead buf (buf.length - 4) 2).setWidth 16 then
    .err .invalidCRC16 (crc16 p (slice buf 0 (buf.length - 4))) ((memRead buf (buf.length - 4) 2).setWidth 16)
  else k

/-- Steps 6 to 8 of DEC (43_deframer.md R176 to R178), after step 5 read the sequence number (R175). CFG_STRICT
is off: the entry is not compared with the wire's fields (log 12). -/
def decodeFields (p : Params) (cfg : Cfg) (buf : Buffer) : Result Msg :=
  let cfg1 := byteAt buf 5
  let dtf := cfg1Dtf p.layout cfg1
  let mtf := cfg1Mtf p.layout cfg1
  let n := sizeOfSzf (cfg1Szf p.layout cfg1)
  match dataTypeOf p dtf with
  | none => .err .invalidDataTypeBits (dtf.setWidth 16) 0
  | some _ =>
    if n ≠ buf.length - spOverhead then
      .err .invalidDataLengthBits (half n) (half (buf.length - spOverhead))
    else
      match channel cfg mtf.toNat with
      | none => .err .invalidMsgTypeBits (mtf.setWidth 16) 0
      | some e =>
        match parse p (slice buf 7 (7 + n)) dtf with
        | .err er d0 d1 => .err er d0 d1
        | .ok (k, v) =>
          .ok {
            seq := (memRead buf 3 2).setWidth 16, mt := mtf.setWidth 8, dt := dtf, size := BitVec.ofNat 4 n,
            kind := k, cfg2 := byteAt buf 6, raw := slice buf 7 (7 + n), val := v, rval := none, entry := some e }

/-- DEC (43_deframer.md R170). The terminator is not read (R179; log 12). -/
def decodeSp (p : Params) (cfg : Cfg) (buf : Buffer) : Result Msg :=
  if buf.length ≤ spOverhead then .err .packetTooSmall (half buf.length) 0
  else checkedFrame p cfg buf (decodeFields p cfg buf)

/-- The message of one float-sequence field at an offset (43_deframer.md R185; 10_state.md R36). -/
def fsMessage (p : Params) (buf : Buffer) (off : Nat) (tag : Byte) : Msg where
  seq := 0
  mt := tag
  dt := p.dtCode .float
  size := 4
  kind := .f32
  cfg2 := 0
  raw := slice buf off (off + fsField)
  val := (memRead buf off 4).setWidth 64
  rval := some (p.round2 ((memRead buf off 4).setWidth 32))
  entry := none

/-- The messages of the channels in `tags`, in order, from an offset on (43_deframer.md R185). -/
def fsMessages (p : Params) (buf : Buffer) : Nat → List Byte → List Msg
  | _, [] => []
  | off, tag :: tags => fsMessage p buf off tag :: fsMessages p buf (off + fsField) tags

/-- FS.DEC (43_deframer.md R180). -/
def decodeFs (p : Params) (cfg : Cfg) (buf : Buffer) : Result (List Msg) :=
  if buf.length ≠ fsLength cfg.fsK then .err .invalidPacketSize (half buf.length) (half (fsLength cfg.fsK))
  else checkedFrame p cfg buf (.ok (fsMessages p buf 3 cfg.fsCh))

/-- A result with its value changed; an error keeps its name and details when it bubbles (60_exceptions.md
R211). -/
def Result.map {α β : Type} (f : α → β) : Result α → Result β
  | .ok v => .ok (f v)
  | .err e d0 d1 => .err e d0 d1

/-- The decoder `MODE` selects (10_state.md R25; 43_deframer.md R191). -/
def decodeFrame (p : Params) (cfg : Cfg) (buf : Buffer) : Result Decoded :=
  match cfg.mode with
  | .sp => Result.map .single (decodeSp p cfg buf)
  | .fs => Result.map .sequence (decodeFs p cfg buf)

/-! ## Splitter (43_deframer.md R191, R192) -/

/-- The buffer ends with the terminator. -/
def endsFrame (buf : Buffer) : Bool :=
  decide (2 ≤ buf.length) && byteAt buf (buf.length - 2) == term0 && byteAt buf (buf.length - 1) == term1

/-- RX.BYTE on the splitter's bytes: what they become, and the response (43_deframer.md R191). -/
def splitterPush (p : Params) (cfg : Cfg) (rxb : Buffer) (b : Byte) : Buffer × Response :=
  if rxb.length = bufCap then ([], .err .rxOverflow (half bufCap) 0)
  else if endsFrame (rxb ++ [b]) then ([], .ok (.frame (decodeFrame p cfg (rxb ++ [b]))))
  else (rxb ++ [b], .ok .noFrame)

/-! ## Answering (00_scope.md R12, R13; 60_exceptions.md R210) -/

/-- The operation ends with this response. -/
def respond (s : State) (r : Response) : State :=
  { s with response := some r }

/-- `raise E(d0, d1)`: the one exceptional event of the block. It is a response: no other state changes, nothing
is saved and control goes nowhere (60_exceptions.md R210, R214). There is no return from it. -/
def raise (s : State) (e : ErrName) (d0 d1 : Half) : State :=
  respond s (.err e d0 d1)

/-- A request whose OP is in no row (30_encoding.md R83; 60_exceptions.md R211 code 17). -/
def answerIllegalOp (s : State) (op : Byte) : State :=
  raise s .illegalOp (op.setWidth 16) 0

/-- The reset input (70_reset_and_hazards.md R240): the accumulator at the seed, the splitter empty, no
response, the configuration kept. -/
def resetInput (s : State) : State :=
  { State.boot s.cfg with pending := s.pending }

/-- The block idles between requests and keeps all its state (60_exceptions.md R226); no operation is in
progress, so there is no response (10_state.md R20 item 3; log 5). -/
def idle (s : State) : State :=
  { s with response := none }

end Sys2Proof.Machine
end

