-- ==== Sys2Proof/Machine/Crc.lean ====
section
/-! DEFINITION. The CRC unit: CRC.INIT, CRC.UPD, CRC.FIN, CRC16 (40_crc.md). -/

namespace Sys2Proof.Machine

/-- CRC.INIT (40_crc.md R103). -/
def execCrcInit (s : State) : Host.Outcome State Fault Refusal :=
  .next (respond { s with crc := crcSeed } (.ok .done))

/-- CRC.UPD (40_crc.md R104). -/
def execCrcUpd (byte : Byte) (s : State) : Host.Outcome State Fault Refusal :=
  .next (respond { s with crc := crcStep params s.crc byte } (.ok .done))

/-- CRC.FIN (40_crc.md R105). -/
def execCrcFin (s : State) : Host.Outcome State Fault Refusal :=
  .next (respond s (.ok (.u16 (crcFinish s.crc))))

/-- CRC16 (40_crc.md R106); the accumulator is private (10_state.md R30). -/
def execCrc16 (buf : Buffer) (s : State) : Host.Outcome State Fault Refusal :=
  .next (respond s (.ok (.u16 (crc16 params buf))))

end Sys2Proof.Machine
end

