-- ==== Sys2Proof/Machine/Deframer.lean ====
section
/-! DEFINITION. The deframer and the stream splitter: DEC, FS.DEC, RX.BYTE, RX.FLUSH (43_deframer.md). -/

namespace Sys2Proof.Machine

/-- DEC (43_deframer.md R170). -/
def execDec (buf : Buffer) (s : State) : Host.Outcome State Fault Refusal :=
  .next (respond s (Result.map (fun m => .decoded (.single m)) (decodeSp params s.cfg buf)))

/-- FS.DEC (43_deframer.md R180). -/
def execFsDec (buf : Buffer) (s : State) : Host.Outcome State Fault Refusal :=
  .next (respond s (Result.map (fun ms => .decoded (.sequence ms)) (decodeFs params s.cfg buf)))

/-- RX.BYTE (43_deframer.md R191, R192). -/
def execRxByte (byte : Byte) (s : State) : Host.Outcome State Fault Refusal :=
  .next (respond { s with rxb := (splitterPush params s.cfg s.rxb byte).1 }
    (splitterPush params s.cfg s.rxb byte).2)

/-- RX.FLUSH (43_deframer.md R194). -/
def execRxFlush (s : State) : Host.Outcome State Fault Refusal :=
  .next (respond { s with rxb := [] } (.ok .done))

end Sys2Proof.Machine
end

