-- ==== Sys2Proof/Machine/Field.lean ====
section
/-! DEFINITION. The field unit: GETP, PARSE, GENP, U16PK, U16UP (41_field.md). -/

namespace Sys2Proof.Machine

/-- GETP (41_field.md R121). -/
def execGetp (size : BitVec 4) (dt : BitVec 2) (s : State) : Host.Outcome State Fault Refusal :=
  .next (respond s (Result.map .kind (kindOf params size.toNat dt)))

/-- PARSE (41_field.md R126). -/
def execParse (buf : Buffer) (dt : BitVec 2) (s : State) : Host.Outcome State Fault Refusal :=
  .next (respond s (Result.map (fun r => .value r.1 r.2) (parse params buf dt)))

/-- GENP (41_field.md R128). -/
def execGenp (dt : BitVec 2) (size : BitVec 4) (val : Val) (s : State) : Host.Outcome State Fault Refusal :=
  .next (respond s (Result.map .bytes (genPayload params dt size.toNat val)))

/-- U16PK (41_field.md R130). -/
def execU16pk (v32 : BitVec 32) (s : State) : Host.Outcome State Fault Refusal :=
  .next (respond s (Result.map .bytes (u16Pack v32)))

/-- U16UP (41_field.md R131). -/
def execU16up (b0 b1 : Byte) (s : State) : Host.Outcome State Fault Refusal :=
  .next (respond s (.ok (.u16 (u16Unpack b0 b1))))

end Sys2Proof.Machine
end

