-- ==== Sys2Proof/Machine/Framer.lean ====
section
/-! DEFINITION. The framer: ENC, FS.ENC (42_framer.md). -/

namespace Sys2Proof.Machine

/-- Steps 3c to 4 of ENC (42_framer.md R152), after the channel's entry, the sequence bytes and the size code are
known. -/
def encodeTail (p : Params) (cfg : Cfg) (e : ChEntry) (seqBytes : Buffer) (szf : BitVec 2) (mt : BitVec 32)
    (val : Val) : Result Buffer :=
  if mt.toInt > mtWireMax then .err .msgTypeOverflow (mt.extractLsb' 0 16) 0
  else
    match genPayload p e.dt e.size.toNat val with
    | .err er d0 d1 => .err er d0 d1
    | .ok payload =>
      let body := spBody cfg.ver0 cfg.ver1 (BitVec.ofNat 8 (spOverhead + e.size.toNat)) seqBytes
        (cfg1Pack p.layout (mt.extractLsb' 0 4) szf e.dt) e.cfg2 payload
      .ok (withTrailer body (crc16 p body))

/-- ENC's packet (42_framer.md R152); the checks run in the order of its steps (R216). -/
def encodeSp (p : Params) (cfg : Cfg) (seq mt : BitVec 32) (val : Val) : Result Buffer :=
  match channel cfg mt.toInt with
  | none => .err .unknownMsgType (mt.extractLsb' 0 16) (mt.extractLsb' 16 16)
  | some e =>
    match u16Pack seq with
    | .err er d0 d1 => .err er d0 d1
    | .ok seqBytes =>
      match szfOfSize e.size.toNat with
      | none => .err .unsupportedSize (half e.size.toNat) 0
      | some szf => encodeTail p cfg e seqBytes szf mt val

/-- ENC (42_framer.md R152). -/
def execEnc (seq mt : BitVec 32) (val : Val) (s : State) : Host.Outcome State Fault Refusal :=
  .next (respond s (Result.map .bytes (encodeSp params s.cfg seq mt val)))

/-- FS.ENC (42_framer.md R156): the write direction is not used for this device family. -/
def execFsEnc (s : State) : Host.Outcome State Fault Refusal :=
  .next (raise s .notImplemented 0 0)

end Sys2Proof.Machine
end

