-- ==== Sys2Proof/Machine/Wire.lean ====
section
/-! DEFINITION. The wire rows of spec/opcode_table.json: the kind map (30_encoding.md R80) and the packet shapes
(R72, R78). What running such a row means is log 7. -/

namespace Sys2Proof.Machine

/-- A row of the kind map: the representation the size and the data type select, or that there is none
(30_encoding.md R80; 41_field.md R121). -/
def kindMapRow (p : Params) (mtf : BitVec 4) (size : Nat) (t : DataType) : Response :=
  Result.map (fun k => .cfg1 mtf (p.dtCode t) (BitVec.ofNat 4 size) k) (kindOf p size (p.dtCode t))

/-- A received single packet: its DEC result (43_deframer.md R170). -/
def receiveSp (p : Params) (cfg : Cfg) (bytes : Buffer) : Response :=
  Result.map (fun m => .decoded (.single m)) (decodeSp p cfg bytes)

/-- A received float-sequence packet: its FS.DEC result (43_deframer.md R180). -/
def receiveFs (p : Params) (cfg : Cfg) (bytes : Buffer) : Response :=
  Result.map (fun ms => .decoded (.sequence ms)) (decodeFs p cfg bytes)

/-- CFG1.INT1 (30_encoding.md R80). -/
def execCfg1Int1 (mtf : BitVec 4) (s : State) : Host.Outcome State Fault Refusal :=
  .next (respond s (kindMapRow params mtf 1 .int))

/-- CFG1.UINT1 (30_encoding.md R80). -/
def execCfg1Uint1 (mtf : BitVec 4) (s : State) : Host.Outcome State Fault Refusal :=
  .next (respond s (kindMapRow params mtf 1 .uint))

/-- CFG1.FLOAT1 (30_encoding.md R80). -/
def execCfg1Float1 (mtf : BitVec 4) (s : State) : Host.Outcome State Fault Refusal :=
  .next (respond s (kindMapRow params mtf 1 .float))

/-- CFG1.COMMAND1 (30_encoding.md R80). -/
def execCfg1Command1 (mtf : BitVec 4) (s : State) : Host.Outcome State Fault Refusal :=
  .next (respond s (kindMapRow params mtf 1 .command))

/-- CFG1.INT2 (30_encoding.md R80). -/
def execCfg1Int2 (mtf : BitVec 4) (s : State) : Host.Outcome State Fault Refusal :=
  .next (respond s (kindMapRow params mtf 2 .int))

/-- CFG1.UINT2 (30_encoding.md R80). -/
def execCfg1Uint2 (mtf : BitVec 4) (s : State) : Host.Outcome State Fault Refusal :=
  .next (respond s (kindMapRow params mtf 2 .uint))

/-- CFG1.FLOAT2 (30_encoding.md R80). -/
def execCfg1Float2 (mtf : BitVec 4) (s : State) : Host.Outcome State Fault Refusal :=
  .next (respond s (kindMapRow params mtf 2 .float))

/-- CFG1.COMMAND2 (30_encoding.md R80). -/
def execCfg1Command2 (mtf : BitVec 4) (s : State) : Host.Outcome State Fault Refusal :=
  .next (respond s (kindMapRow params mtf 2 .command))

/-- CFG1.INT4 (30_encoding.md R80). -/
def execCfg1Int4 (mtf : BitVec 4) (s : State) : Host.Outcome State Fault Refusal :=
  .next (respond s (kindMapRow params mtf 4 .int))

/-- CFG1.UINT4 (30_encoding.md R80). -/
def execCfg1Uint4 (mtf : BitVec 4) (s : State) : Host.Outcome State Fault Refusal :=
  .next (respond s (kindMapRow params mtf 4 .uint))

/-- CFG1.FLOAT4 (30_encoding.md R80). -/
def execCfg1Float4 (mtf : BitVec 4) (s : State) : Host.Outcome State Fault Refusal :=
  .next (respond s (kindMapRow params mtf 4 .float))

/-- CFG1.COMMAND4 (30_encoding.md R80). -/
def execCfg1Command4 (mtf : BitVec 4) (s : State) : Host.Outcome State Fault Refusal :=
  .next (respond s (kindMapRow params mtf 4 .command))

/-- CFG1.INT8 (30_encoding.md R80). -/
def execCfg1Int8 (mtf : BitVec 4) (s : State) : Host.Outcome State Fault Refusal :=
  .next (respond s (kindMapRow params mtf 8 .int))

/-- CFG1.UINT8 (30_encoding.md R80). -/
def execCfg1Uint8 (mtf : BitVec 4) (s : State) : Host.Outcome State Fault Refusal :=
  .next (respond s (kindMapRow params mtf 8 .uint))

/-- CFG1.FLOAT8 (30_encoding.md R80). -/
def execCfg1Float8 (mtf : BitVec 4) (s : State) : Host.Outcome State Fault Refusal :=
  .next (respond s (kindMapRow params mtf 8 .float))

/-- CFG1.COMMAND8 (30_encoding.md R80). -/
def execCfg1Command8 (mtf : BitVec 4) (s : State) : Host.Outcome State Fault Refusal :=
  .next (respond s (kindMapRow params mtf 8 .command))

/-- SP.PKT1 (30_encoding.md R72; 43_deframer.md R170). -/
def execSpPkt1 (verb0 verb1 : Byte) (seq : Half) (mtf : BitVec 4) (dtf : BitVec 2) (cfg2 : Byte)
    (payload : BitVec 8) (crcf : Half) (s : State) : Host.Outcome State Fault Refusal :=
  .next (respond s (receiveSp params s.cfg
    (spWire verb0 verb1 1 seq (cfg1Pack .lsb0 mtf 0 dtf) cfg2 payload.toNat crcf)))

/-- SP.PKT2 (30_encoding.md R72; 43_deframer.md R170). -/
def execSpPkt2 (verb0 verb1 : Byte) (seq : Half) (mtf : BitVec 4) (dtf : BitVec 2) (cfg2 : Byte)
    (payload : BitVec 16) (crcf : Half) (s : State) : Host.Outcome State Fault Refusal :=
  .next (respond s (receiveSp params s.cfg
    (spWire verb0 verb1 2 seq (cfg1Pack .lsb0 mtf 1 dtf) cfg2 payload.toNat crcf)))

/-- SP.PKT4 (30_encoding.md R72; 43_deframer.md R170). -/
def execSpPkt4 (verb0 verb1 : Byte) (seq : Half) (mtf : BitVec 4) (dtf : BitVec 2) (cfg2 : Byte)
    (payload : BitVec 32) (crcf : Half) (s : State) : Host.Outcome State Fault Refusal :=
  .next (respond s (receiveSp params s.cfg
    (spWire verb0 verb1 4 seq (cfg1Pack .lsb0 mtf 2 dtf) cfg2 payload.toNat crcf)))

/-- SP.PKT8 (30_encoding.md R72; 43_deframer.md R170). -/
def execSpPkt8 (verb0 verb1 : Byte) (seq : Half) (mtf : BitVec 4) (dtf : BitVec 2) (cfg2 : Byte)
    (payload : BitVec 64) (crcf : Half) (s : State) : Host.Outcome State Fault Refusal :=
  .next (respond s (receiveSp params s.cfg
    (spWire verb0 verb1 8 seq (cfg1Pack .lsb0 mtf 3 dtf) cfg2 payload.toNat crcf)))

/-- FS.PKT (30_encoding.md R78; 43_deframer.md R180). -/
def execFsPkt (verb0 verb1 lenb : Byte) (flds : List (BitVec 32)) (crcf : Half) (s : State) :
    Host.Outcome State Fault Refusal :=
  .next (respond s (receiveFs params s.cfg (fsWire verb0 verb1 lenb flds crcf)))

end Sys2Proof.Machine
end

