-- ==== Sys2Proof/Machine/Dispatch.lean ====
section
/-! DEFINITION. What each instruction does: one arm per row of spec/opcode_table.json. -/

namespace Sys2Proof.Machine

def exec (i : Instr) (s : State) : Host.Outcome State Fault Refusal :=
  match i with
  | .crcInit => Sys2Proof.Machine.execCrcInit s
  | .crcUpd byte => Sys2Proof.Machine.execCrcUpd byte s
  | .crcFin => Sys2Proof.Machine.execCrcFin s
  | .crc16 buf => Sys2Proof.Machine.execCrc16 buf s
  | .getp size dt => Sys2Proof.Machine.execGetp size dt s
  | .parse buf dt => Sys2Proof.Machine.execParse buf dt s
  | .genp dt size val => Sys2Proof.Machine.execGenp dt size val s
  | .u16pk v32 => Sys2Proof.Machine.execU16pk v32 s
  | .u16up b0 b1 => Sys2Proof.Machine.execU16up b0 b1 s
  | .enc seq mt val => Sys2Proof.Machine.execEnc seq mt val s
  | .fsEnc => Sys2Proof.Machine.execFsEnc s
  | .dec buf => Sys2Proof.Machine.execDec buf s
  | .fsDec buf => Sys2Proof.Machine.execFsDec buf s
  | .rxByte byte => Sys2Proof.Machine.execRxByte byte s
  | .rxFlush => Sys2Proof.Machine.execRxFlush s
  | .cfg1Int1 mtf => Sys2Proof.Machine.execCfg1Int1 mtf s
  | .cfg1Uint1 mtf => Sys2Proof.Machine.execCfg1Uint1 mtf s
  | .cfg1Float1 mtf => Sys2Proof.Machine.execCfg1Float1 mtf s
  | .cfg1Command1 mtf => Sys2Proof.Machine.execCfg1Command1 mtf s
  | .cfg1Int2 mtf => Sys2Proof.Machine.execCfg1Int2 mtf s
  | .cfg1Uint2 mtf => Sys2Proof.Machine.execCfg1Uint2 mtf s
  | .cfg1Float2 mtf => Sys2Proof.Machine.execCfg1Float2 mtf s
  | .cfg1Command2 mtf => Sys2Proof.Machine.execCfg1Command2 mtf s
  | .cfg1Int4 mtf => Sys2Proof.Machine.execCfg1Int4 mtf s
  | .cfg1Uint4 mtf => Sys2Proof.Machine.execCfg1Uint4 mtf s
  | .cfg1Float4 mtf => Sys2Proof.Machine.execCfg1Float4 mtf s
  | .cfg1Command4 mtf => Sys2Proof.Machine.execCfg1Command4 mtf s
  | .cfg1Int8 mtf => Sys2Proof.Machine.execCfg1Int8 mtf s
  | .cfg1Uint8 mtf => Sys2Proof.Machine.execCfg1Uint8 mtf s
  | .cfg1Float8 mtf => Sys2Proof.Machine.execCfg1Float8 mtf s
  | .cfg1Command8 mtf => Sys2Proof.Machine.execCfg1Command8 mtf s
  | .spPkt1 verb0 verb1 seq mtf dtf cfg2 payload crcf => Sys2Proof.Machine.execSpPkt1 verb0 verb1 seq mtf dtf cfg2 payload crcf s
  | .spPkt2 verb0 verb1 seq mtf dtf cfg2 payload crcf => Sys2Proof.Machine.execSpPkt2 verb0 verb1 seq mtf dtf cfg2 payload crcf s
  | .spPkt4 verb0 verb1 seq mtf dtf cfg2 payload crcf => Sys2Proof.Machine.execSpPkt4 verb0 verb1 seq mtf dtf cfg2 payload crcf s
  | .spPkt8 verb0 verb1 seq mtf dtf cfg2 payload crcf => Sys2Proof.Machine.execSpPkt8 verb0 verb1 seq mtf dtf cfg2 payload crcf s
  | .fsPkt verb0 verb1 lenb flds crcf => Sys2Proof.Machine.execFsPkt verb0 verb1 lenb flds crcf s

end Sys2Proof.Machine
end

