-- ==== Sys2Proof/WellFormed.lean ====
section
/-! DEFINITION. Which instructions the encodings can spell: a buffer operand is at most BUF_CAP bytes
(10_state.md R28), a float-sequence packet at most as long as its length byte can state (10_state.md R24). -/

namespace Sys2Proof

/-- A buffer operand has `0 <= LEN <= BUF_CAP` (10_state.md R28). -/
abbrev bufferFits (buf : Buffer) : Prop :=
  buf.length ≤ Machine.bufCap

/-- A float-sequence packet of these fields is at most BUF_CAP bytes, that is at most 62 fields (10_state.md
R24). -/
abbrev fieldsFit (flds : List (BitVec 32)) : Prop :=
  Machine.fsLength flds.length ≤ Machine.bufCap

/-- The instructions the encodings admit; the widths of the other operands are in their types. -/
def Instr.wellFormed : Instr → Bool
  | .crc16 buf => decide (bufferFits buf)
  | .parse buf _ => decide (bufferFits buf)
  | .dec buf => decide (bufferFits buf)
  | .fsDec buf => decide (bufferFits buf)
  | .fsPkt _ _ _ flds _ => decide (fieldsFit flds)
  | .crcInit => true
  | .crcUpd _ => true
  | .crcFin => true
  | .getp _ _ => true
  | .genp _ _ _ => true
  | .u16pk _ => true
  | .u16up _ _ => true
  | .enc _ _ _ => true
  | .fsEnc => true
  | .rxByte _ => true
  | .rxFlush => true
  | .cfg1Int1 _ => true
  | .cfg1Uint1 _ => true
  | .cfg1Float1 _ => true
  | .cfg1Command1 _ => true
  | .cfg1Int2 _ => true
  | .cfg1Uint2 _ => true
  | .cfg1Float2 _ => true
  | .cfg1Command2 _ => true
  | .cfg1Int4 _ => true
  | .cfg1Uint4 _ => true
  | .cfg1Float4 _ => true
  | .cfg1Command4 _ => true
  | .cfg1Int8 _ => true
  | .cfg1Uint8 _ => true
  | .cfg1Float8 _ => true
  | .cfg1Command8 _ => true
  | .spPkt1 _ _ _ _ _ _ _ _ => true
  | .spPkt2 _ _ _ _ _ _ _ _ => true
  | .spPkt4 _ _ _ _ _ _ _ _ => true
  | .spPkt8 _ _ _ _ _ _ _ _ => true

end Sys2Proof
end

