-- ==== Sys2Proof/Decode.lean ====
section
/-! DEFINITION. The decoder, total on any item the host presents, and the encoder, both from the tables of
30_encoding.md (R72, R78, R80, R82). -/

namespace Sys2Proof

open Machine (byteAt slice memRead leBytes bufCap fsLength term0 term1 spOverhead fsOverhead fsField)

/-! ## Requests (30_encoding.md R82; the byte layout of the operands is log 8) -/

/-- The reading `r` of a request whose operands take at least `n` bytes. -/
def needs (n : Nat) (op : Byte) (ops : Buffer) (r : Reading) : Reading :=
  if ops.length < n then .bad (.truncated op) else r

/-- The reading `r` of a request with an operand of `w` bits held in the byte `b`. -/
def narrow (w : Nat) (op b : Byte) (r : Reading) : Reading :=
  if b.toNat < 2 ^ w then r else .bad (.operandTooWide op)

/-- A buffer operand, LEN and then the bytes, and `extra` bytes after it. -/
def bufferOperand (op : Byte) (ops : Buffer) (extra : Nat) (k : Buffer → Reading) : Reading :=
  needs 1 op ops
    (needs (1 + (byteAt ops 0).toNat + extra) op ops (k (slice ops 1 (1 + (byteAt ops 0).toNat))))

/-- The reading of a request with command code `op` and operand bytes `ops`; bytes after the operands are
operands the operation does not have (log 8). -/
def decodeOp (op : Byte) (ops : Buffer) : Reading :=
  match op with
  | 0x10#8 => .instr .crcInit
  | 0x11#8 => needs 1 op ops (.instr (.crcUpd (byteAt ops 0)))
  | 0x12#8 => .instr .crcFin
  | 0x13#8 => bufferOperand op ops 0 (fun buf => .instr (.crc16 buf))
  | 0x20#8 =>
    needs 2 op ops (narrow 4 op (byteAt ops 0) (narrow 2 op (byteAt ops 1)
      (.instr (.getp ((byteAt ops 0).setWidth 4) ((byteAt ops 1).setWidth 2)))))
  | 0x21#8 =>
    bufferOperand op ops 1 (fun buf =>
      narrow 2 op (byteAt ops (1 + buf.length)) (.instr (.parse buf ((byteAt ops (1 + buf.length)).setWidth 2))))
  | 0x22#8 =>
    needs 10 op ops (narrow 2 op (byteAt ops 0) (narrow 4 op (byteAt ops 1)
      (.instr (.genp ((byteAt ops 0).setWidth 2) ((byteAt ops 1).setWidth 4) ((memRead ops 2 8).setWidth 64)))))
  | 0x23#8 => needs 4 op ops (.instr (.u16pk ((memRead ops 0 4).setWidth 32)))
  | 0x24#8 => needs 2 op ops (.instr (.u16up (byteAt ops 0) (byteAt ops 1)))
  | 0x30#8 =>
    needs 16 op ops (.instr (.enc ((memRead ops 0 4).setWidth 32) ((memRead ops 4 4).setWidth 32)
      ((memRead ops 8 8).setWidth 64)))
  | 0x31#8 => .instr .fsEnc
  | 0x40#8 => bufferOperand op ops 0 (fun buf => .instr (.dec buf))
  | 0x41#8 => bufferOperand op ops 0 (fun buf => .instr (.fsDec buf))
  | 0x42#8 => needs 1 op ops (.instr (.rxByte (byteAt ops 0)))
  | 0x43#8 => .instr .rxFlush
  | _ => .illegalOp op

/-- The reading of a request. -/
def decodeRequest : Buffer → Reading
  | [] => .bad .emptyRequest
  | op :: ops => decodeOp op ops

/-! ## Wire items (30_encoding.md R72, R78, R80; log 7) -/

/-- The kind-map row of a cfg1 byte: its low four bits select the row, its high four bits are the msg_type
(30_encoding.md R80). -/
def decodeCfg1 (b : Byte) : Instr :=
  let m : BitVec 4 := b.extractLsb' 4 4
  match b.extractLsb' 0 4 with
  | 0#4 => .cfg1Int1 m
  | 1#4 => .cfg1Uint1 m
  | 2#4 => .cfg1Float1 m
  | 3#4 => .cfg1Command1 m
  | 4#4 => .cfg1Int2 m
  | 5#4 => .cfg1Uint2 m
  | 6#4 => .cfg1Float2 m
  | 7#4 => .cfg1Command2 m
  | 8#4 => .cfg1Int4 m
  | 9#4 => .cfg1Uint4 m
  | 10#4 => .cfg1Float4 m
  | 11#4 => .cfg1Command4 m
  | 12#4 => .cfg1Int8 m
  | 13#4 => .cfg1Uint8 m
  | 14#4 => .cfg1Float8 m
  | _ => .cfg1Command8 m

/-- The frame has the fixed bits of the row SP.PKT`n`: its length, its length byte, its size field and its
terminator (30_encoding.md R72). -/
def hasSpShape (n : Nat) (szf : BitVec 2) (bytes : Buffer) : Bool :=
  bytes.length == spOverhead + n && byteAt bytes 2 == BitVec.ofNat 8 (spOverhead + n)
    && Machine.cfg1Szf .lsb0 (byteAt bytes 5) == szf
    && byteAt bytes (9 + n) == term0 && byteAt bytes (10 + n) == term1

/-- The fields that the four packet rows share, handed to a constructor: version bytes, sequence number,
msg_type and data type fields, cfg2 (30_encoding.md R72). -/
def withSpHeader (bytes : Buffer) (k : Byte → Byte → Half → BitVec 4 → BitVec 2 → Byte → Instr) : Reading :=
  .instr <|
  k (byteAt bytes 0) (byteAt bytes 1) ((memRead bytes 3 2).setWidth 16) (Machine.cfg1Mtf .lsb0 (byteAt bytes 5))
    (Machine.cfg1Dtf .lsb0 (byteAt bytes 5)) (byteAt bytes 6)

/-- The reading of a frame for the single-packet decoder. A frame of no row's shape is decoded all the same:
every byte string has a DEC result (93_implementation_defined.md U20). -/
def decodeSpFrame (bytes : Buffer) : Reading :=
  if hasSpShape 1 0 bytes then
    withSpHeader bytes (fun v w s m d c =>
      .spPkt1 v w s m d c ((memRead bytes 7 1).setWidth 8) ((memRead bytes 8 2).setWidth 16))
  else if hasSpShape 2 1 bytes then
    withSpHeader bytes (fun v w s m d c =>
      .spPkt2 v w s m d c ((memRead bytes 7 2).setWidth 16) ((memRead bytes 9 2).setWidth 16))
  else if hasSpShape 4 2 bytes then
    withSpHeader bytes (fun v w s m d c =>
      .spPkt4 v w s m d c ((memRead bytes 7 4).setWidth 32) ((memRead bytes 11 2).setWidth 16))
  else if hasSpShape 8 3 bytes then
    withSpHeader bytes (fun v w s m d c =>
      .spPkt8 v w s m d c ((memRead bytes 7 8).setWidth 64) ((memRead bytes 15 2).setWidth 16))
  else if bytes.length ≤ bufCap then .instr (.dec bytes)
  else .bad .bufferTooLong

/-- `k` fields of 4 bytes from an offset on (30_encoding.md R78). -/
def fieldsAt (bytes : Buffer) (off : Nat) : Nat → List (BitVec 32)
  | 0 => []
  | k + 1 => (memRead bytes off 4).setWidth 32 :: fieldsAt bytes (off + 4) k

/-- The number of fields a frame of this length would hold (30_encoding.md R78). -/
def fieldCount (len : Nat) : Nat :=
  (len - fsOverhead) / fsField

/-- The frame has the fixed bits of the row FS.PKT: a length of `7 + 4k` and the terminator (30_encoding.md
R78). -/
def hasFsShape (bytes : Buffer) : Bool :=
  bytes.length == fsLength (fieldCount bytes.length)
    && byteAt bytes (bytes.length - 2) == term0 && byteAt bytes (bytes.length - 1) == term1

/-- The reading of a frame for the float-sequence decoder. -/
def decodeFsFrame (bytes : Buffer) : Reading :=
  if bufCap < bytes.length then .bad .bufferTooLong
  else if hasFsShape bytes then
    .instr (.fsPkt (byteAt bytes 0) (byteAt bytes 1) (byteAt bytes 2) (fieldsAt bytes 3 (fieldCount bytes.length))
      ((memRead bytes (bytes.length - 4) 2).setWidth 16))
  else .instr (.fsDec bytes)

/-- The decoder. -/
def decodeInput : Input → Reading
  | .request bytes => decodeRequest bytes
  | .cfg1 b => .instr (decodeCfg1 b)
  | .spFrame bytes => decodeSpFrame bytes
  | .fsFrame bytes => decodeFsFrame bytes
  | .reset => .reset

/-! ## The encoder -/

/-- A buffer operand: LEN, then the bytes (log 8). -/
def encodeBuffer (buf : Buffer) : Buffer :=
  BitVec.ofNat 8 buf.length :: buf

/-- The item that spells an instruction: a request for a command code (30_encoding.md R82; operands in the order
of 95_test_vectors.md section 3, little-endian, log 8), a cfg1 byte for a row of the kind map (R80), a frame for
a packet shape (R72, R78). -/
def encode : Instr → Input
  | .crcInit => .request [0x10]
  | .crcUpd byte => .request [0x11, byte]
  | .crcFin => .request [0x12]
  | .crc16 buf => .request (0x13 :: encodeBuffer buf)
  | .getp size dt => .request [0x20, size.setWidth 8, dt.setWidth 8]
  | .parse buf dt => .request (0x21 :: (encodeBuffer buf ++ [dt.setWidth 8]))
  | .genp dt size val => .request (0x22 :: dt.setWidth 8 :: size.setWidth 8 :: leBytes 8 val.toNat)
  | .u16pk v32 => .request (0x23 :: leBytes 4 v32.toNat)
  | .u16up b0 b1 => .request [0x24, b0, b1]
  | .enc seq mt val => .request (0x30 :: (leBytes 4 seq.toNat ++ leBytes 4 mt.toNat ++ leBytes 8 val.toNat))
  | .fsEnc => .request [0x31]
  | .dec buf => .request (0x40 :: encodeBuffer buf)
  | .fsDec buf => .request (0x41 :: encodeBuffer buf)
  | .rxByte byte => .request [0x42, byte]
  | .rxFlush => .request [0x43]
  | .cfg1Int1 m => .cfg1 (m ++ 0#4)
  | .cfg1Uint1 m => .cfg1 (m ++ 1#4)
  | .cfg1Float1 m => .cfg1 (m ++ 2#4)
  | .cfg1Command1 m => .cfg1 (m ++ 3#4)
  | .cfg1Int2 m => .cfg1 (m ++ 4#4)
  | .cfg1Uint2 m => .cfg1 (m ++ 5#4)
  | .cfg1Float2 m => .cfg1 (m ++ 6#4)
  | .cfg1Command2 m => .cfg1 (m ++ 7#4)
  | .cfg1Int4 m => .cfg1 (m ++ 8#4)
  | .cfg1Uint4 m => .cfg1 (m ++ 9#4)
  | .cfg1Float4 m => .cfg1 (m ++ 10#4)
  | .cfg1Command4 m => .cfg1 (m ++ 11#4)
  | .cfg1Int8 m => .cfg1 (m ++ 12#4)
  | .cfg1Uint8 m => .cfg1 (m ++ 13#4)
  | .cfg1Float8 m => .cfg1 (m ++ 14#4)
  | .cfg1Command8 m => .cfg1 (m ++ 15#4)
  | .spPkt1 v w s m d c p k => .spFrame (Machine.spWire v w 1 s (Machine.cfg1Pack .lsb0 m 0 d) c p.toNat k)
  | .spPkt2 v w s m d c p k => .spFrame (Machine.spWire v w 2 s (Machine.cfg1Pack .lsb0 m 1 d) c p.toNat k)
  | .spPkt4 v w s m d c p k => .spFrame (Machine.spWire v w 4 s (Machine.cfg1Pack .lsb0 m 2 d) c p.toNat k)
  | .spPkt8 v w s m d c p k => .spFrame (Machine.spWire v w 8 s (Machine.cfg1Pack .lsb0 m 3 d) c p.toNat k)
  | .fsPkt v w l flds k => .fsFrame (Machine.fsWire v w l flds k)

/-! ## The words of spec/opcode_table.json -/

/-- The command codes of the table (30_encoding.md R82). -/
def commandCodes : List Byte :=
  [0x10, 0x11, 0x12, 0x13, 0x20, 0x21, 0x22, 0x23, 0x24, 0x30, 0x31, 0x40, 0x41, 0x42, 0x43]

/-- The item that a word of the table stands for (log 13). A row of 8 bits is a command code, then followed by
operand bytes of zeros, or, where the byte is no command code, a cfg1 byte. A row of 96, 104, 120 or 152 bits is
a single packet, one of 88 bits the float-sequence packet (the table shows its group of field bytes once). Any
other number of bits is a request with its operand bytes. -/
def tableInput (nbits w : Nat) : Input :=
  if nbits ≤ 8 then
    if commandCodes.contains (BitVec.ofNat 8 w) then .request (leBytes 1 w ++ List.replicate 257 0)
    else .cfg1 (BitVec.ofNat 8 w)
  else if nbits = 96 ∨ nbits = 104 ∨ nbits = 120 ∨ nbits = 152 then .spFrame (leBytes (nbits / 8) w)
  else if nbits = 88 then .fsFrame (leBytes (nbits / 8) w)
  else .request (leBytes ((nbits + 7) / 8) w ++ List.replicate 257 0)

/-- The instruction of a reading. -/
def Reading.instr? : Reading → Option Instr
  | .instr i => some i
  | .illegalOp _ => none
  | .reset => none
  | .bad _ => none

/-- The instruction the decoder reads from a word numbered as spec/opcode_table.json numbers it. -/
def decodeTableWord (nbits w : Nat) : Option Instr :=
  (decodeInput (tableInput nbits w)).instr?

end Sys2Proof
end

