-- ==== Sys2Proof/Machine/Fetch.lean ====
section
/-! DEFINITION. How the block comes by its next request: the host presents the first pending item
(10_state.md R37; log 4). -/

namespace Sys2Proof.Machine

/-- The reading of the next item the host presents and the state with it taken, none when there is none. -/
def fetch (s : State) : Option (Reading × State) :=
  match s.pending with
  | [] => none
  | item :: rest => some (decodeInput item, { s with pending := rest })

/-- The item of a word of the opcode table, presented next (log 4, log 13). -/
def presentWord (s : State) (nbits w : Nat) : State :=
  { s with pending := tableInput nbits w :: s.pending }

end Sys2Proof.Machine
end

