-- ==== Sys2Proof/Machine/Step.lean ====
section
/-! DEFINITION. One step: the host presents the next item and the block answers it, or the block idles
(00_scope.md R9; 10_state.md R37). -/

namespace Sys2Proof.Machine

/-- One step. -/
def step (s : State) : Host.Outcome State Fault Refusal :=
  match fetch s with
  | none => .next (idle s)
  | some (.instr i, t) => exec i t
  | some (.illegalOp op, t) => .next (answerIllegalOp t op)
  | some (.reset, t) => .next (resetInput t)
  | some (.bad r, _) => .refused (.malformed r)

/-- The instruction of a word of spec/opcode_table.json, placed where the next step finds it. -/
def State.withFetchWord (s : State) (nbits w : Nat) : State :=
  presentWord s nbits w

end Sys2Proof.Machine
end

