-- ==== Sys2Proof/Machine/Numeric.lean ====
section
/-! DEFINITION. The number a field value stands for (41_field.md R123, R124), which the host computes and the
block never does, and the one property the spec lets a claim assume of ROUND2 (93_implementation_defined.md U6).
No operation uses this file. -/

namespace Sys2Proof.Machine

/-- A number as a pattern stands for it. -/
inductive NumValue where
  | int (v : Int)
  | zero (negative : Bool)
  /-- `mant * 2 ^ exp`, with its sign. -/
  | finite (negative : Bool) (mant : Nat) (exp : Int)
  | infinity (negative : Bool)
  | nan
deriving DecidableEq, Repr

/-- The IEEE 754 value of a pattern with `w` exponent bits and `t` fraction bits (41_field.md R124). -/
def floatValue (w t bias pattern : Nat) : NumValue :=
  let negative : Bool := pattern / 2 ^ (w + t) % 2 == 1
  let e := pattern / 2 ^ t % 2 ^ w
  let f := pattern % 2 ^ t
  if e = 0 then
    if f = 0 then .zero negative else .finite negative f (1 - (bias : Int) - t)
  else if e = 2 ^ w - 1 then
    if f = 0 then .infinity negative else .nan
  else .finite negative (2 ^ t + f) ((e : Int) - bias - t)

/-- The binary32 value of a pattern (41_field.md R124). -/
def f32Value (p : BitVec 32) : NumValue :=
  floatValue 8 23 127 p.toNat

/-- The binary64 value of a pattern (41_field.md R124). -/
def f64Value (p : BitVec 64) : NumValue :=
  floatValue 11 52 1023 p.toNat

/-- `num(kind, VAL)` (41_field.md R123). -/
def num (k : Kind) (v : Val) : NumValue :=
  match k with
  | .u8 => .int v.toNat
  | .u16 => .int v.toNat
  | .u32 => .int v.toNat
  | .u64 => .int v.toNat
  | .i8 => .int v.toInt
  | .i16 => .int v.toInt
  | .i32 => .int v.toInt
  | .i64 => .int v.toInt
  | .f32 => f32Value (v.setWidth 32)
  | .f64 => f64Value v

/-- The rational number a value is; infinities and NaN are none. -/
def NumValue.rat? : NumValue → Option ℚ
  | .int v => some v
  | .zero _ => some 0
  | .finite negative mant exp => some ((if negative then -1 else 1) * mant * (2 : ℚ) ^ exp)
  | .infinity _ => none
  | .nan => none

/-- The value has at most two decimals and 100 times it has a magnitude below 2^24
(93_implementation_defined.md U6). -/
def twoDecimals (x : ℚ) : Prop :=
  ∃ z : Int, 100 * x = z ∧ z.natAbs < 2 ^ 24

/-- P-ROUND2 (93_implementation_defined.md U6): a reading with at most two decimals comes out with its value
unchanged. Nothing else may be assumed of ROUND2. -/
def PRound2 (round2 : BitVec 32 → BitVec 64) : Prop :=
  ∀ (p : BitVec 32) (x : ℚ), (f32Value p).rat? = some x → twoDecimals x → (f64Value (round2 p)).rat? = some x

end Sys2Proof.Machine
end

