-- ==== Sys2Proof/Safety.lean ====
section
/-! DEFINITION. The terms claims are stated in: the invariants of a state, runs of several instructions, and the
changes to a buffer that the rules speak of. -/

namespace Sys2Proof.Safety

open Machine

/-- The two terminator bytes stand next to each other somewhere in the buffer. -/
def hasTerminator : Buffer → Bool
  | [] => false
  | b :: rest => (b == term0 && rest.head? == some term1) || hasTerminator rest

/-- The slots of the channel table are listed in rising order, each once (log 2). -/
def slotsRising : List (Byte × ChEntry) → Bool
  | [] => true
  | [_] => true
  | a :: b :: rest => decide (a.1.toNat < b.1.toNat) && slotsRising (b :: rest)

/-- A configuration record the spec's widths admit (10_state.md R22, R24): the table in its one form, at most 62
float-sequence channels. -/
def cfgLegal (cfg : Cfg) : Bool :=
  slotsRising cfg.ch && decide (Cfg.fsK cfg ≤ 62)

/-- The splitter holds at most BUF_CAP bytes and no complete frame (10_state.md R31; 43_deframer.md R191). -/
def splitterClean (rxb : Buffer) : Bool :=
  decide (rxb.length ≤ bufCap) && !hasTerminator rxb

/-- The invariant of a reachable state. -/
def inv (s : State) : Bool :=
  cfgLegal s.cfg && splitterClean s.rxb

/-- Running instructions one after the other, stopping at the first stop. -/
def execAll : List Instr → State → Host.Outcome State Fault Refusal
  | [], s => .next s
  | i :: is, s =>
    match exec i s with
    | .next t => execAll is t
    | .fault r => .fault r
    | .refused r => .refused r

/-- The buffer with bit `j` of byte `i` flipped. -/
def flipBit (buf : Buffer) (i j : Nat) : Buffer :=
  buf.modify i (fun b => b ^^^ BitVec.twoPow 8 j)

/-- The frame's length byte is its length (43_deframer.md R172). -/
def lengthByteOk (buf : Buffer) : Prop :=
  ∃ b, buf[2]? = some b ∧ b.toNat = buf.length

/-- The frame carries the configured version pair (43_deframer.md R173). -/
def versionOk (cfg : Cfg) (buf : Buffer) : Prop :=
  buf[0]? = some cfg.ver0 ∧ buf[1]? = some cfg.ver1

/-- The CRC over all but the last four bytes is the one the frame carries, low byte first (43_deframer.md
R174). -/
def crcOk (p : Params) (buf : Buffer) : Prop :=
  ∃ lo hi, buf[buf.length - 4]? = some lo ∧ buf[buf.length - 3]? = some hi ∧
    crc16 p (buf.take (buf.length - 4)) = hi ++ lo

/-- An instruction run on a state answers with this response and changes nothing else. -/
def answers (i : Instr) (s : State) (r : Response) : Prop :=
  exec i s = .next { s with response := some r }

/-- The decoded message of a single packet with these field values (10_state.md R36, column DEC). -/
def spMessage (seq : Half) (mtf : BitVec 4) (dtf : BitVec 2) (k : Kind) (cfg2 : Byte) (raw : Buffer) (val : Val)
    (e : ChEntry) : Msg where
  seq := seq
  mt := mtf.setWidth 8
  dt := dtf
  size := BitVec.ofNat 4 raw.length
  kind := k
  cfg2 := cfg2
  raw := raw
  val := val
  rval := none
  entry := some e

/-- The instructions that keep no state from one operation to the next and change none: all but CRC.INIT, CRC.UPD,
RX.BYTE and RX.FLUSH, and the one that only reads the accumulator, CRC.FIN (20_memory.md R56). -/
def isPure : Instr → Bool
  | .crcInit => false
  | .crcUpd _ => false
  | .crcFin => false
  | .rxByte _ => false
  | .rxFlush => false
  | .crc16 _ => true
  | .getp _ _ => true
  | .parse _ _ => true
  | .genp _ _ _ => true
  | .u16pk _ => true
  | .u16up _ _ => true
  | .enc _ _ _ => true
  | .fsEnc => true
  | .dec _ => true
  | .fsDec _ => true
  | .cfg1Int1 _ => true
  | .cfg1Uint1 _ => true
  | .cfg1Float1 _ => true
  | .cfg1Command1 _ => true
  | .cfg1Int2 _ => true
  | .cfg1Uint2 _ => true
  | .cfg1Float2 _ => true
  | .cfg1Command2 _ => true
  | .cfg1Int4 _ => true
  | .cfg1Uint4 _ => true
  | .cfg1Float4 _ => true
  | .cfg1Command4 _ => true
  | .cfg1Int8 _ => true
  | .cfg1Uint8 _ => true
  | .cfg1Float8 _ => true
  | .cfg1Command8 _ => true
  | .spPkt1 _ _ _ _ _ _ _ _ => true
  | .spPkt2 _ _ _ _ _ _ _ _ => true
  | .spPkt4 _ _ _ _ _ _ _ _ => true
  | .spPkt8 _ _ _ _ _ _ _ _ => true
  | .fsPkt _ _ _ _ _ => true

/-- The bit-serial form of the CRC step (40_crc.md R102). -/
def crcBitSerial (c : Half) (b : Byte) : Half :=
  crcShifts 8 (c ^^^ b.setWidth 16)

end Sys2Proof.Safety
end

