-- ==== Sys2Proof/Certificates/Slice0/Obligations.lean ====
section
/-! DEFINITION. The statements for the provers. Each docstring names the rule of spec/ it formalises; one that
rests on an inference of the spec or on a choice of the model says so. -/

open Sys2Proof Sys2Proof.Machine Sys2Proof.Safety

/-! ## The CRC unit -/

/-- 40_crc.md R101: the constant is the bit-reversal of 0x1021, the table the operations use comes from the loop
over it, and it is the printed table. -/
def Obligations.CrcTableIsPrintedTable : Prop :=
  (0x1021 : Half).reverse = 0x8408 ∧
  (∀ c, crcShift c = if c.getLsbD 0 then (c >>> 1) ^^^ 0x8408 else c >>> 1) ∧
  (∀ i : Byte, params.table i = crcShift (crcShift (crcShift (crcShift (crcShift (crcShift (crcShift (crcShift
    (i.setWidth 16))))))))) ∧
  crcTablePrinted.length = 256 ∧ ∀ i : Byte, crcTablePrinted[i.toNat]? = some (params.table i)

/-- 40_crc.md section 1: the table step equals the bit-serial form (an inference of the spec from R101, R102). -/
def Obligations.CrcStepEqualsBitSerial : Prop :=
  ∀ (c : Half) (b : Byte),
    crcStep params c b = (c >>> 8) ^^^ params.table ((c ^^^ b.setWidth 16).extractLsb' 0 8) ∧
    crcStep params c b = crcBitSerial c b

/-- 40_crc.md R103. -/
def Obligations.CrcInitSetsSeed : Prop :=
  ∀ s : State, exec .crcInit s = .next { s with crc := 0xFFFF, response := some (.ok .done) }

/-- 40_crc.md R104, its corner case after reset and its example included. -/
def Obligations.CrcUpdStepsAccumulator : Prop :=
  (∀ (b : Byte) (s : State),
    exec (.crcUpd b) s = .next { s with
      crc := (s.crc >>> 8) ^^^ params.table ((s.crc ^^^ b.setWidth 16).extractLsb' 0 8)
      response := some (.ok .done) }) ∧
  ∀ cfg : Cfg, exec (.crcUpd 0x31) (State.boot cfg) =
    .next { State.boot cfg with crc := 0x2F8D, response := some (.ok .done) }

/-- 40_crc.md R105, its corner case and its example included. -/
def Obligations.CrcFinComplements : Prop :=
  (∀ s : State, answers .crcFin s (.ok (.u16 (~~~s.crc)))) ∧
  (∀ s : State, s.crc = 0xFFFF → answers .crcFin s (.ok (.u16 0x0000))) ∧
  ∀ s : State, s.crc = 0x6F91 → answers .crcFin s (.ok (.u16 0x906E))

/-- 40_crc.md R106, its corner case and its example included. -/
def Obligations.Crc16FoldsTheBuffer : Prop :=
  (∀ (buf : Buffer) (s : State),
    answers (.crc16 buf) s (.ok (.u16 (~~~(buf.foldl
      (fun c b => (c >>> 8) ^^^ params.table ((c ^^^ b.setWidth 16).extractLsb' 0 8)) 0xFFFF))))) ∧
  (∀ s : State, answers (.crc16 []) s (.ok (.u16 0x0000))) ∧
  ∀ s : State, answers (.crc16 [0x31, 0x32, 0x33, 0x34, 0x35, 0x36, 0x37, 0x38, 0x39]) s (.ok (.u16 0x906E))

/-- 30_encoding.md section 5, pseudo-operations: CRC16 equals CRC.INIT, one CRC.UPD per byte in order, CRC.FIN.
The streaming form leaves the sum in the accumulator, CRC16 leaves the accumulator alone. -/
def Obligations.StreamingCrcEqualsCrc16 : Prop :=
  ∀ (buf : Buffer) (s : State),
    execAll (.crcInit :: (buf.map Instr.crcUpd ++ [.crcFin])) s =
      .next { s with crc := crcRun params 0xFFFF buf, response := some (.ok (.u16 (crc16 params buf))) } ∧
    answers (.crc16 buf) s (.ok (.u16 (crc16 params buf)))

/-- 40_crc.md section 3, item (3): a buffer followed by its own CRC, low byte first, leaves the accumulator at
0xF0B8, so that CRC.FIN gives 0x0F47, whatever the buffer was. -/
def Obligations.CrcResidueIsConstant : Prop :=
  ∀ buf : Buffer,
    crcRun params 0xFFFF (buf ++ leBytes 2 (crc16 params buf).toNat) = 0xF0B8 ∧
    ∀ s : State, s.crc = crcRun params 0xFFFF (buf ++ leBytes 2 (crc16 params buf).toNat) →
      answers .crcFin s (.ok (.u16 0x0F47))

/-- 40_crc.md section 3, item (4): one flipped bit changes the CRC, in a buffer of any length. -/
def Obligations.CrcDetectsOneFlippedBit : Prop :=
  ∀ (buf : Buffer) (i j : Nat), i < buf.length → j < 8 → crc16 params (flipBit buf i j) ≠ crc16 params buf

/-! ## The field unit -/

/-- 41_field.md R121: the whole function, the size tested first. -/
def Obligations.GetpSelectsKind : Prop :=
  (∀ (size : BitVec 4) (dt : BitVec 2) (s : State), size.toNat ∉ [1, 2, 4, 8] →
    answers (.getp size dt) s (.err .unsupportedSize (size.setWidth 16) 0)) ∧
  (∀ size ∈ ([1, 2] : List (BitVec 4)), ∀ s : State,
    answers (.getp size 2) s (.err .noParserForCombination (size.setWidth 16) 2)) ∧
  ∀ r ∈ ([(1, 0, .i8), (2, 0, .i16), (4, 0, .i32), (8, 0, .i64), (1, 1, .u8), (2, 1, .u16), (4, 1, .u32),
      (8, 1, .u64), (4, 2, .f32), (8, 2, .f64), (1, 3, .u8), (2, 3, .u16), (4, 3, .u32), (8, 3, .u64)] :
      List (BitVec 4 × BitVec 2 × Kind)),
    ∀ s : State, answers (.getp r.1 r.2.1) s (.ok (.kind r.2.2))

/-- 41_field.md R122: COMMAND has the kinds of UINT; with `COMMAND_KIND` at "no parser" every legal size is
refused. -/
def Obligations.CommandFieldsAreUnsigned : Prop :=
  (∀ n : Nat, kindOf params n (dtCode .command) = kindOf params n (dtCode .uint)) ∧
  ∀ n : Nat, n ∈ [1, 2, 4, 8] →
    kindOf { params with commandKind := .noParser } n (dtCode .command) =
      .err .noParserForCombination (half n) (dtCode .command |>.setWidth 16)

/-- 41_field.md R125: `fits` says that VAL is the form of a pattern of the kind, bit by bit and in numbers. -/
def Obligations.FitsMeansFormOfAPattern : Prop :=
  ∀ (k : Kind) (v : Val),
    (fits k v = true ↔ ∃ p : BitVec (8 * Kind.bytes k), v = valForm k p) ∧
    (Kind.signed k = false →
      (fits k v = true ↔ ∀ i, 8 * Kind.bytes k ≤ i → i < 64 → v.getLsbD i = false) ∧
      (fits k v = true ↔ v.toNat ≤ 2 ^ (8 * Kind.bytes k) - 1)) ∧
    (Kind.signed k = true →
      (fits k v = true ↔ ∀ i, 8 * Kind.bytes k - 1 ≤ i → i < 64 → v.getLsbD i = v.getLsbD (8 * Kind.bytes k - 1)) ∧
      (fits k v = true ↔
        -(2 ^ (8 * Kind.bytes k - 1) : Int) ≤ v.toInt ∧ v.toInt ≤ 2 ^ (8 * Kind.bytes k - 1) - 1)) ∧
    fits .f64 v = true

/-- 41_field.md R126: the kind of the buffer's length, the little-endian pattern, its sign or zero extension. -/
def Obligations.ParseExtendsThePattern : Prop :=
  ∀ (buf : Buffer) (dt : BitVec 2) (s : State),
    (∀ e d0 d1, kindOf params buf.length dt = .err e d0 d1 → answers (.parse buf dt) s (.err e d0 d1)) ∧
    (buf.length ∉ [1, 2, 4, 8] → answers (.parse buf dt) s (.err .unsupportedSize (half buf.length) 0)) ∧
    (buf.length ∈ [1, 2] → dt = 2 → answers (.parse buf dt) s (.err .noParserForCombination (half buf.length) 2)) ∧
    ∀ k, kindOf params buf.length dt = .ok k →
      ∃ p : BitVec (8 * buf.length), p.toNat = leNat buf ∧
        answers (.parse buf dt) s (.ok (.value k (if Kind.signed k then p.signExtend 64 else p.setWidth 64)))

/-- 41_field.md R128: the errors in their order, then byte `j` of the new buffer is `VAL[8j+7:8j]`. -/
def Obligations.GenpWritesThePattern : Prop :=
  ∀ (dt : BitVec 2) (size : BitVec 4) (val : Val) (s : State),
    (∀ e d0 d1, kindOf params size.toNat dt = .err e d0 d1 → answers (.genp dt size val) s (.err e d0 d1)) ∧
    ∀ k, kindOf params size.toNat dt = .ok k →
      (fits k val = false →
        answers (.genp dt size val) s (.err .valueOutOfRange (size.setWidth 16) (dt.setWidth 16))) ∧
      (fits k val = true →
        ∃ out : Buffer, answers (.genp dt size val) s (.ok (.bytes out)) ∧ out.length = size.toNat ∧
          ∀ j < size.toNat, out[j]? = some (val.extractLsb' (8 * j) 8))

/-- 41_field.md section 2, round trip of the field unit, exact both ways, for any value of the parameters. -/
def Obligations.FieldUnitRoundTrip : Prop :=
  ∀ p : Params,
    (∀ (dt : BitVec 2) (n : Nat) (k : Kind) (val : Val), kindOf p n dt = .ok k → fits k val = true →
      ∃ out, genPayload p dt n val = .ok out ∧ parse p out dt = .ok (k, val)) ∧
    ∀ (buf : Buffer) (dt : BitVec 2) (k : Kind), kindOf p buf.length dt = .ok k →
      ∃ v, parse p buf dt = .ok (k, v) ∧ fits k v = true ∧ genPayload p dt buf.length v = .ok buf

/-- 41_field.md R130. -/
def Obligations.U16pkPacksTheRange : Prop :=
  ∀ (v : BitVec 32) (s : State),
    (0 ≤ v.toInt ∧ v.toInt ≤ 65535 → answers (.u16pk v) s (.ok (.bytes [v.extractLsb' 0 8, v.extractLsb' 8 8]))) ∧
    (v.toInt < 0 ∨ 65535 < v.toInt →
      answers (.u16pk v) s (.err .u16OutOfRange (v.extractLsb' 0 16) (v.extractLsb' 16 16)))

/-- 41_field.md R131, the inverse of packing included. -/
def Obligations.U16upInvertsPacking : Prop :=
  (∀ (b0 b1 : Byte) (s : State), ∃ w : Half, w = b1 ++ b0 ∧ w.toNat = b0.toNat + 256 * b1.toNat ∧
    answers (.u16up b0 b1) s (.ok (.u16 w))) ∧
  ∀ v : BitVec 32, 0 ≤ v.toInt → v.toInt ≤ 65535 →
    ∃ b0 b1, u16Pack v = .ok [b0, b1] ∧ (u16Unpack b0 b1).toNat = v.toNat

/-- 20_memory.md section 1, mixed-width views (an inference of the spec): a wide read and the byte reads of the
same place agree; and what was written is what is read, with every other byte left alone (00_scope.md section 6,
MemWrite). -/
def Obligations.WideReadsAreLittleEndian : Prop :=
  (∀ (buf : Buffer) (off n j : Nat), off + n ≤ buf.length → j < n →
    (memRead buf (off + j) 1).setWidth 8 = (memRead buf off n).extractLsb' (8 * j) 8) ∧
  ∀ (buf : Buffer) (off n : Nat) (v : BitVec (8 * n)), off + n ≤ buf.length →
    memRead (memWrite buf off n v) off n = v ∧ (memWrite buf off n v).length = buf.length ∧
    ∀ i, i < off ∨ off + n ≤ i → (memWrite buf off n v)[i]? = buf[i]?

/-- 41_field.md section 1, the number a pattern stands for: of what PARSE answers, an unsigned kind is the
little-endian number and a signed kind its two's complement, in range. -/
def Obligations.ParsedNumberIsTwosComplement : Prop :=
  ∀ (p : Params) (buf : Buffer) (dt : BitVec 2) (k : Kind) (v : Val), parse p buf dt = .ok (k, v) →
    (k ∈ [.u8, .u16, .u32, .u64] → num k v = .int (leNat buf)) ∧
    (Kind.signed k = true →
      num k v = .int ((BitVec.ofNat (8 * buf.length) (leNat buf)).toInt) ∧
      -(2 ^ (8 * buf.length - 1) : Int) ≤ (BitVec.ofNat (8 * buf.length) (leNat buf)).toInt ∧
      (BitVec.ofNat (8 * buf.length) (leNat buf)).toInt ≤ 2 ^ (8 * buf.length - 1) - 1) ∧
    (k = .f32 → num k v = f32Value (BitVec.ofNat 32 (leNat buf))) ∧
    (k = .f64 → num k v = f64Value (BitVec.ofNat 64 (leNat buf)))

/-! ## The framer -/

/-- 42_framer.md R152: the errors in their order, else the packet byte by byte. -/
def Obligations.EncBuildsThePacket : Prop :=
  ∀ (seq mt : BitVec 32) (val : Val) (s : State),
    (channel s.cfg mt.toInt = none →
      answers (.enc seq mt val) s (.err .unknownMsgType (mt.extractLsb' 0 16) (mt.extractLsb' 16 16))) ∧
    ∀ e, channel s.cfg mt.toInt = some e →
      (seq.toInt < 0 ∨ 65535 < seq.toInt →
        answers (.enc seq mt val) s (.err .u16OutOfRange (seq.extractLsb' 0 16) (seq.extractLsb' 16 16))) ∧
      (0 ≤ seq.toInt ∧ seq.toInt ≤ 65535 →
        (e.size.toNat ∉ [1, 2, 4, 8] →
          answers (.enc seq mt val) s (.err .unsupportedSize (e.size.setWidth 16) 0)) ∧
        (e.size.toNat ∈ [1, 2, 4, 8] →
          (15 < mt.toInt → answers (.enc seq mt val) s (.err .msgTypeOverflow (mt.extractLsb' 0 16) 0)) ∧
          (mt.toInt ≤ 15 →
            (e.dt = 2 ∧ e.size.toNat ∈ [1, 2] →
              answers (.enc seq mt val) s (.err .noParserForCombination (e.size.setWidth 16) 2)) ∧
            ∀ k, kindOf params e.size.toNat e.dt = .ok k →
              (fits k val = false →
                answers (.enc seq mt val) s (.err .valueOutOfRange (e.size.setWidth 16) (e.dt.setWidth 16))) ∧
              (fits k val = true →
                ∃ (body : Buffer) (crc : Half),
                  body = [s.cfg.ver0, s.cfg.ver1, BitVec.ofNat 8 (11 + e.size.toNat), seq.extractLsb' 0 8,
                    seq.extractLsb' 8 8,
                    (mt.extractLsb' 0 4 ++ BitVec.ofNat 2 (Nat.log2 e.size.toNat) ++ e.dt : BitVec 8), e.cfg2] ++
                    (List.range e.size.toNat).map (fun j => val.extractLsb' (8 * j) 8) ∧
                  crc = crc16 params body ∧
                  answers (.enc seq mt val) s
                    (.ok (.bytes (body ++ [crc.extractLsb' 0 8, crc.extractLsb' 8 8, 0x0D, 0x0A])))))))

/-- 42_framer.md section of ENC, the round trip (an inference of the spec): every packet ENC returns is accepted
by DEC of the same instance and gives back what went in, for any CRC table and any value of the other
parameters; and so run as two instructions. -/
def Obligations.EncThenDecGivesBack : Prop :=
  (∀ (p : Params) (cfg : Cfg) (seq mt : BitVec 32) (val : Val) (pkt : Buffer),
    encodeSp p cfg seq mt val = .ok pkt →
      ∃ e m, channel cfg mt.toInt = some e ∧ decodeSp p cfg pkt = .ok m ∧
        (m.seq.toNat : Int) = seq.toInt ∧ (m.mt.toNat : Int) = mt.toInt ∧ m.dt = e.dt ∧ m.size = e.size ∧
        m.cfg2 = e.cfg2 ∧ m.val = val ∧ m.entry = some e) ∧
  ∀ (seq mt : BitVec 32) (val : Val) (s t : State) (pkt : Buffer),
    exec (.enc seq mt val) s = .next t → t.response = some (.ok (.bytes pkt)) →
      ∃ e m, channel s.cfg mt.toInt = some e ∧ answers (.dec pkt) t (.ok (.decoded (.single m))) ∧
        (m.seq.toNat : Int) = seq.toInt ∧ (m.mt.toNat : Int) = mt.toInt ∧ m.val = val ∧ m.entry = some e

/-- 30_encoding.md section 1, the lengths of a single packet: every packet ENC returns has 12, 13, 15 or 19
bytes, its length byte says so, and it ends with the terminator. -/
def Obligations.EncPacketLengths : Prop :=
  ∀ (p : Params) (cfg : Cfg) (seq mt : BitVec 32) (val : Val) (pkt : Buffer),
    encodeSp p cfg seq mt val = .ok pkt →
      pkt.length ∈ [12, 13, 15, 19] ∧ lengthByteOk pkt ∧ versionOk cfg pkt ∧ crcOk p pkt ∧
      pkt[pkt.length - 2]? = some 0x0D ∧ pkt[pkt.length - 1]? = some 0x0A

/-- 42_framer.md R156. -/
def Obligations.FsEncIsNotImplemented : Prop :=
  ∀ s : State, answers .fsEnc s (.err .notImplemented 0 0)

/-! ## The deframer -/

/-- 43_deframer.md R171 to R174: the first four checks of DEC, each reached only when those before it pass. -/
def Obligations.DecHeaderChecksInOrder : Prop :=
  ∀ (buf : Buffer) (s : State),
    (buf.length ≤ 11 → answers (.dec buf) s (.err .packetTooSmall (half buf.length) 0)) ∧
    (11 < buf.length → ∀ b0 b1 b2 lo hi : Byte, buf[0]? = some b0 → buf[1]? = some b1 → buf[2]? = some b2 →
      buf[buf.length - 4]? = some lo → buf[buf.length - 3]? = some hi →
      (buf.length ≠ b2.toNat →
        answers (.dec buf) s (.err .invalidPacketSizeByte (half buf.length) (b2.setWidth 16))) ∧
      (buf.length = b2.toNat →
        (b0 ≠ s.cfg.ver0 ∨ b1 ≠ s.cfg.ver1 →
          answers (.dec buf) s (.err .invalidVersionBytes (b1 ++ b0) (s.cfg.ver1 ++ s.cfg.ver0))) ∧
        (b0 = s.cfg.ver0 ∧ b1 = s.cfg.ver1 →
          crc16 params (buf.take (buf.length - 4)) ≠ hi ++ lo →
            answers (.dec buf) s (.err .invalidCRC16 (crc16 params (buf.take (buf.length - 4))) (hi ++ lo)))))

/-- 43_deframer.md R176: the checks on the cfg1 byte, in their order, after the header checks pass; the unknown
data type cannot occur; a length that is not 12, 13, 15 or 19 fails here. The parse that follows can fail only
for FLOAT of 1 or 2 bytes (R178). -/
def Obligations.DecCfg1ChecksInOrder : Prop :=
  (∀ (buf : Buffer) (s : State) (c : Byte), 11 < buf.length → lengthByteOk buf → versionOk s.cfg buf →
    crcOk params buf → buf[5]? = some c →
      (1 <<< (c.extractLsb' 2 2).toNat ≠ buf.length - 11 →
        answers (.dec buf) s
          (.err .invalidDataLengthBits (half (1 <<< (c.extractLsb' 2 2).toNat)) (half (buf.length - 11)))) ∧
      (buf.length ∉ [12, 13, 15, 19] →
        answers (.dec buf) s
          (.err .invalidDataLengthBits (half (1 <<< (c.extractLsb' 2 2).toNat)) (half (buf.length - 11)))) ∧
      (1 <<< (c.extractLsb' 2 2).toNat = buf.length - 11 →
        (channel s.cfg (c.extractLsb' 4 4).toNat = none →
          answers (.dec buf) s (.err .invalidMsgTypeBits ((c.extractLsb' 4 4).setWidth 16) 0)) ∧
        ((channel s.cfg (c.extractLsb' 4 4).toNat).isSome → c.extractLsb' 0 2 = 2 → buf.length - 11 ∈ [1, 2] →
          answers (.dec buf) s (.err .noParserForCombination (half (buf.length - 11)) 2)))) ∧
  ∀ (buf : Buffer) (s t : State) (d0 d1 : Half), exec (.dec buf) s = .next t →
    t.response ≠ some (.err .invalidDataTypeBits d0 d1)

/-- 43_deframer.md R175, R177, R178 (and R170's last step): a frame that passes every check is reported with the
wire's sequence number, cfg1 fields, cfg2 byte and payload, and the table's entry beside them. -/
def Obligations.DecReportsTheWireFields : Prop :=
  ∀ (buf : Buffer) (s : State) (e : ChEntry) (k : Kind) (q0 q1 c c2 : Byte),
    11 < buf.length → lengthByteOk buf → versionOk s.cfg buf → crcOk params buf →
    buf[3]? = some q0 → buf[4]? = some q1 → buf[5]? = some c → buf[6]? = some c2 →
    1 <<< (c.extractLsb' 2 2).toNat = buf.length - 11 →
    channel s.cfg (c.extractLsb' 4 4).toNat = some e →
    kindOf params (buf.length - 11) (c.extractLsb' 0 2) = .ok k →
      ∃ (raw : Buffer) (v : Val), raw = (buf.drop 7).take (buf.length - 11) ∧
        parse params raw (c.extractLsb' 0 2) = .ok (k, v) ∧
        answers (.dec buf) s (.ok (.decoded (.single
          (spMessage (q1 ++ q0) (c.extractLsb' 4 4) (c.extractLsb' 0 2) k c2 raw v e))))

/-- 43_deframer.md section 1, what DEC does not check: the last two bytes are read by neither decoder. -/
def Obligations.DecodersIgnoreTheTerminator : Prop :=
  ∀ (p : Params) (cfg : Cfg) (buf : Buffer) (x y : Byte), 2 ≤ buf.length →
    decodeSp p cfg (buf.take (buf.length - 2) ++ [x, y]) = decodeSp p cfg buf ∧
    decodeFs p cfg (buf.take (buf.length - 2) ++ [x, y]) = decodeFs p cfg buf

/-- 43_deframer.md section 4, item (2) (an inference of the spec): what DEC and FS.DEC answer for each single
flipped bit of a valid packet. -/
def Obligations.DecodersClassifyBitFlips : Prop :=
  (∀ (cfg : Cfg) (buf : Buffer) (m : Msg) (i j : Nat),
    decodeSp params cfg buf = .ok m → i < buf.length → j < 8 →
      (i < 2 → ∃ d0 d1, decodeSp params cfg (flipBit buf i j) = .err .invalidVersionBytes d0 d1) ∧
      (i = 2 → ∃ d0 d1, decodeSp params cfg (flipBit buf i j) = .err .invalidPacketSizeByte d0 d1) ∧
      (3 ≤ i → i < buf.length - 2 → ∃ d0 d1, decodeSp params cfg (flipBit buf i j) = .err .invalidCRC16 d0 d1) ∧
      (buf.length - 2 ≤ i → decodeSp params cfg (flipBit buf i j) = .ok m)) ∧
  ∀ (cfg : Cfg) (buf : Buffer) (ms : List Msg) (i j : Nat),
    decodeFs params cfg buf = .ok ms → i < buf.length → j < 8 →
      (i < 2 → ∃ d0 d1, decodeFs params cfg (flipBit buf i j) = .err .invalidVersionBytes d0 d1) ∧
      (i = 2 → ∃ d0 d1, decodeFs params cfg (flipBit buf i j) = .err .invalidPacketSizeByte d0 d1) ∧
      (3 ≤ i → i < buf.length - 2 → ∃ d0 d1, decodeFs params cfg (flipBit buf i j) = .err .invalidCRC16 d0 d1) ∧
      (buf.length - 2 ≤ i → decodeFs params cfg (flipBit buf i j) = .ok ms)

/-- 43_deframer.md R181 to R184: the checks of FS.DEC in their order. -/
def Obligations.FsDecChecksInOrder : Prop :=
  ∀ (buf : Buffer) (s : State),
    (buf.length ≠ 7 + 4 * Cfg.fsK s.cfg →
      answers (.fsDec buf) s (.err .invalidPacketSize (half buf.length) (half (7 + 4 * Cfg.fsK s.cfg)))) ∧
    (buf.length = 7 + 4 * Cfg.fsK s.cfg → ∀ b0 b1 b2 lo hi : Byte,
      buf[0]? = some b0 → buf[1]? = some b1 → buf[2]? = some b2 →
      buf[buf.length - 4]? = some lo → buf[buf.length - 3]? = some hi →
      (buf.length ≠ b2.toNat →
        answers (.fsDec buf) s (.err .invalidPacketSizeByte (half buf.length) (b2.setWidth 16))) ∧
      (buf.length = b2.toNat →
        (b0 ≠ s.cfg.ver0 ∨ b1 ≠ s.cfg.ver1 →
          answers (.fsDec buf) s (.err .invalidVersionBytes (b1 ++ b0) (s.cfg.ver1 ++ s.cfg.ver0))) ∧
        (b0 = s.cfg.ver0 ∧ b1 = s.cfg.ver1 →
          crc16 params (buf.take (buf.length - 4)) ≠ hi ++ lo →
            answers (.fsDec buf) s (.err .invalidCRC16 (crc16 params (buf.take (buf.length - 4))) (hi ++ lo)))))

/-- 43_deframer.md R185: one message per configured channel, in order, each with its own four bytes whatever they
are; `RVAL` is ROUND2 of the pattern (R186), which stays open. -/
def Obligations.FsDecReportsEveryField : Prop :=
  ∀ (buf : Buffer) (s : State), buf.length = 7 + 4 * Cfg.fsK s.cfg → lengthByteOk buf → versionOk s.cfg buf →
    crcOk params buf →
      ∃ ms : List Msg, answers (.fsDec buf) s (.ok (.decoded (.sequence ms))) ∧ ms.length = Cfg.fsK s.cfg ∧
        ∀ (i : Nat) (tag : Byte), s.cfg.fsCh[i]? = some tag →
          ∃ (raw : Buffer) (pat : BitVec 32), raw = (buf.drop (3 + 4 * i)).take 4 ∧ raw.length = 4 ∧
            pat.toNat = leNat raw ∧
            ms[i]? = some {
              seq := 0, mt := tag, dt := 2, size := 4, kind := .f32, cfg2 := 0, raw := raw,
              val := pat.setWidth 64, rval := some (Config.round2 pat), entry := none }

/-- 43_deframer.md section 2, ROUND2, with the one property the spec lets a claim assume of it
(93_implementation_defined.md U6): a field with at most two decimals is reported with its value unchanged,
whatever ROUND2 is. -/
def Obligations.TwoDecimalFieldsSurviveRounding : Prop :=
  ∀ round2 : BitVec 32 → BitVec 64, PRound2 round2 →
    ∀ (cfg : Cfg) (buf : Buffer) (ms : List Msg),
      decodeFs { params with round2 := round2 } cfg buf = .ok ms →
        ∀ m ∈ ms, ∀ x : ℚ, (num m.kind m.val).rat? = some x → twoDecimals x →
          ∃ r, m.rval = some r ∧ (f64Value r).rat? = some x

/-! ## The stream splitter -/

/-- 43_deframer.md R191, R192: overflow, a completed frame handed to the decoder MODE selects, or a byte kept. -/
def Obligations.RxByteCutsAtTheTerminator : Prop :=
  ∀ (b : Byte) (s : State),
    (s.rxb.length = 255 →
      exec (.rxByte b) s = .next { s with rxb := [], response := some (.err .rxOverflow 255 0) }) ∧
    (s.rxb.length ≠ 255 →
      ((∃ init, s.rxb ++ [b] = init ++ [0x0D, 0x0A]) →
        (s.cfg.mode = .sp →
          exec (.rxByte b) s = .next { s with
            rxb := []
            response := some (.ok (.frame (Result.map .single (decodeSp params s.cfg (s.rxb ++ [b]))))) }) ∧
        (s.cfg.mode = .fs →
          exec (.rxByte b) s = .next { s with
            rxb := []
            response := some (.ok (.frame (Result.map .sequence (decodeFs params s.cfg (s.rxb ++ [b]))))) })) ∧
      (¬ (∃ init, s.rxb ++ [b] = init ++ [0x0D, 0x0A]) →
        exec (.rxByte b) s = .next { s with rxb := s.rxb ++ [b], response := some (.ok .noFrame) }))

/-- 43_deframer.md R194. -/
def Obligations.RxFlushEmpties : Prop :=
  ∀ s : State, exec .rxFlush s = .next { s with rxb := [], response := some (.ok .done) }

/-- 20_memory.md section 6 and 43_deframer.md section 3: the splitter keeps the bytes in order and hands over
every frame of at most 255 bytes whose only terminator is its end; before that it answers NoFrame. -/
def Obligations.SplitterDeliversWholeFrames : Prop :=
  (∀ (s : State) (bytes : Buffer), s.rxb = [] → bytes ≠ [] → bytes.length ≤ 255 → hasTerminator bytes = false →
    execAll (bytes.map Instr.rxByte) s = .next { s with rxb := bytes, response := some (.ok .noFrame) }) ∧
  ∀ (s : State) (body : Buffer), s.rxb = [] → body.length ≤ 253 → hasTerminator (body ++ [0x0D]) = false →
    execAll ((body ++ [0x0D, 0x0A]).map Instr.rxByte) s =
      .next { s with rxb := [], response := some (.ok (.frame (decodeFrame params s.cfg (body ++ [0x0D, 0x0A])))) }

/-- 70_reset_and_hazards.md section 3, the terminator is not escaped (an inference of the spec): the first piece
of a valid packet cut before its end is always rejected. -/
def Obligations.CutPacketIsRejected : Prop :=
  (∀ (p : Params) (cfg : Cfg) (buf piece : Buffer) (m : Msg),
    decodeSp p cfg buf = .ok m → piece <+: buf → piece ≠ buf →
      (piece.length ≤ 11 → decodeSp p cfg piece = .err .packetTooSmall (half piece.length) 0) ∧
      (11 < piece.length →
        decodeSp p cfg piece = .err .invalidPacketSizeByte (half piece.length) (half buf.length))) ∧
  ∀ (p : Params) (cfg : Cfg) (buf piece : Buffer) (ms : List Msg),
    decodeFs p cfg buf = .ok ms → piece <+: buf → piece ≠ buf →
      decodeFs p cfg piece = .err .invalidPacketSize (half piece.length) (half buf.length)

/-! ## The wire rows -/

/-- 30_encoding.md section 3: the sixteen rows of the kind map. That a row is run alone and answers with its
fields is the model's choice (log 7). -/
def Obligations.KindMapRowsSelectKinds : Prop :=
  ∀ (m : BitVec 4) (s : State),
    answers (.cfg1Int1 m) s (.ok (.cfg1 m 0 1 .i8)) ∧ answers (.cfg1Uint1 m) s (.ok (.cfg1 m 1 1 .u8)) ∧
    answers (.cfg1Float1 m) s (.err .noParserForCombination 1 2) ∧
    answers (.cfg1Command1 m) s (.ok (.cfg1 m 3 1 .u8)) ∧
    answers (.cfg1Int2 m) s (.ok (.cfg1 m 0 2 .i16)) ∧ answers (.cfg1Uint2 m) s (.ok (.cfg1 m 1 2 .u16)) ∧
    answers (.cfg1Float2 m) s (.err .noParserForCombination 2 2) ∧
    answers (.cfg1Command2 m) s (.ok (.cfg1 m 3 2 .u16)) ∧
    answers (.cfg1Int4 m) s (.ok (.cfg1 m 0 4 .i32)) ∧ answers (.cfg1Uint4 m) s (.ok (.cfg1 m 1 4 .u32)) ∧
    answers (.cfg1Float4 m) s (.ok (.cfg1 m 2 4 .f32)) ∧ answers (.cfg1Command4 m) s (.ok (.cfg1 m 3 4 .u32)) ∧
    answers (.cfg1Int8 m) s (.ok (.cfg1 m 0 8 .i64)) ∧ answers (.cfg1Uint8 m) s (.ok (.cfg1 m 1 8 .u64)) ∧
    answers (.cfg1Float8 m) s (.ok (.cfg1 m 2 8 .f64)) ∧ answers (.cfg1Command8 m) s (.ok (.cfg1 m 3 8 .u64))

/-- 30_encoding.md section 1: the cfg1 byte packs and unpacks its three fields in either layout, and under the
layout taken it is `(MTF << 4) | (SZF << 2) | DTF`. -/
def Obligations.Cfg1FieldsPackAndUnpack : Prop :=
  ∀ (m : BitVec 4) (s d : BitVec 2),
    (∀ layout : Cfg1Layout, cfg1Mtf layout (cfg1Pack layout m s d) = m ∧
      cfg1Szf layout (cfg1Pack layout m s d) = s ∧ cfg1Dtf layout (cfg1Pack layout m s d) = d) ∧
    cfg1Pack params.layout m s d = (m.setWidth 8 <<< 4) ||| (s.setWidth 8 <<< 2) ||| d.setWidth 8 ∧
    cfg1Pack .msb0 m s d = (d.setWidth 8 <<< 6) ||| (s.setWidth 8 <<< 4) ||| m.setWidth 8

/-- 30_encoding.md section 1 and 43_deframer.md section 1: a packet of the shape of a row, with the instance's
version pair, a right CRC, a configured channel and a parser for its data type, is decoded to the message of its
fields. That a packet row is run as the decode of its bytes is the model's choice (log 7). -/
def Obligations.SinglePacketRowsDecode : Prop :=
  ∀ (s : State) (seq : Half) (m : BitVec 4) (d : BitVec 2) (c2 : Byte) (e : ChEntry) (k : Kind),
    channel s.cfg m.toNat = some e →
    (∀ p : BitVec 8, kindOf params 1 d = .ok k →
      ∀ crc, crc = crc16 params ([s.cfg.ver0, s.cfg.ver1, 12] ++ leBytes 2 seq.toNat ++ [(m ++ 0#2 ++ d : BitVec 8), c2]
          ++ leBytes 1 p.toNat) →
        answers (.spPkt1 s.cfg.ver0 s.cfg.ver1 seq m d c2 p crc) s
          (.ok (.decoded (.single (spMessage seq m d k c2 (leBytes 1 p.toNat) (valForm k (n := 1) p) e))))) ∧
    (∀ p : BitVec 16, kindOf params 2 d = .ok k →
      ∀ crc, crc = crc16 params ([s.cfg.ver0, s.cfg.ver1, 13] ++ leBytes 2 seq.toNat ++ [(m ++ 1#2 ++ d : BitVec 8), c2]
          ++ leBytes 2 p.toNat) →
        answers (.spPkt2 s.cfg.ver0 s.cfg.ver1 seq m d c2 p crc) s
          (.ok (.decoded (.single (spMessage seq m d k c2 (leBytes 2 p.toNat) (valForm k (n := 2) p) e))))) ∧
    (∀ p : BitVec 32, kindOf params 4 d = .ok k →
      ∀ crc, crc = crc16 params ([s.cfg.ver0, s.cfg.ver1, 15] ++ leBytes 2 seq.toNat ++ [(m ++ 2#2 ++ d : BitVec 8), c2]
          ++ leBytes 4 p.toNat) →
        answers (.spPkt4 s.cfg.ver0 s.cfg.ver1 seq m d c2 p crc) s
          (.ok (.decoded (.single (spMessage seq m d k c2 (leBytes 4 p.toNat) (valForm k (n := 4) p) e))))) ∧
    ∀ p : BitVec 64, kindOf params 8 d = .ok k →
      ∀ crc, crc = crc16 params ([s.cfg.ver0, s.cfg.ver1, 19] ++ leBytes 2 seq.toNat ++ [(m ++ 3#2 ++ d : BitVec 8), c2]
          ++ leBytes 8 p.toNat) →
        answers (.spPkt8 s.cfg.ver0 s.cfg.ver1 seq m d c2 p crc) s
          (.ok (.decoded (.single (spMessage seq m d k c2 (leBytes 8 p.toNat) (valForm k (n := 8) p) e))))

/-- 30_encoding.md section 1 and 43_deframer.md section 2: a float-sequence packet with the instance's version
pair, one field per configured channel, the length byte of its length and a right CRC is decoded to the messages
of its fields. That the row is run as the decode of its bytes is the model's choice (log 7). -/
def Obligations.FloatSequenceRowDecodes : Prop :=
  ∀ (s : State) (lenb : Byte) (flds : List (BitVec 32)) (crc : Half),
    flds.length = Cfg.fsK s.cfg → lenb.toNat = 7 + 4 * flds.length →
    crc = crc16 params ([s.cfg.ver0, s.cfg.ver1, lenb] ++ flds.flatMap (fun f => leBytes 4 f.toNat)) →
      answers (.fsPkt s.cfg.ver0 s.cfg.ver1 lenb flds crc) s
        (.ok (.decoded (.sequence (List.zipWith (fun (tag : Byte) (f : BitVec 32) => {
          seq := 0, mt := tag, dt := 2, size := 4, kind := .f32, cfg2 := 0, raw := leBytes 4 f.toNat,
          val := f.setWidth 64, rval := some (Config.round2 f), entry := none }) s.cfg.fsCh flds))))

/-! ## The whole machine -/

/-- 00_scope.md section 6, results: every operation returns a tagged result, `ok(v)` or `err(E, d0, d1)`, and never
any other kind of outcome. That the 21 wire rows of the table are operations too is the model's choice (log 7). -/
def Obligations.EveryOperationAnswers : Prop :=
  ∀ (i : Instr) (s : State), ∃ t, exec i s = .next t ∧
    ((∃ v, t.response = some (.ok v)) ∨ ∃ e d0 d1, t.response = some (.err e d0 d1))

/-- 60_exceptions.md section 1: the codes of R211's table and the words of a response (R213). -/
def Obligations.ResponseWords : Prop :=
  ([.unsupportedSize, .noParserForCombination, .u16OutOfRange, .valueOutOfRange, .unknownMsgType, .msgTypeOverflow,
    .packetTooSmall, .invalidPacketSizeByte, .invalidVersionBytes, .invalidCRC16, .invalidDataTypeBits,
    .invalidDataLengthBits, .invalidMsgTypeBits, .invalidPacketSize, .notImplemented, .rxOverflow,
    .illegalOp].map errCode = (List.range 17).map (fun n => BitVec.ofNat 8 (n + 1))) ∧
  (∀ e : ErrName, errClass e = .domain ↔
    e ∈ [.unsupportedSize, .noParserForCombination, .u16OutOfRange, .valueOutOfRange, .unknownMsgType,
      .msgTypeOverflow, .notImplemented, .illegalOp]) ∧
  (∀ v : Payload, status (.ok v) = 0 ∧ detail0 (.ok v) = 0 ∧ detail1 (.ok v) = 0) ∧
  ∀ (e : ErrName) (d0 d1 : Half),
    status (.err e d0 d1) = errCode e ∧ detail0 (.err e d0 d1) = d0 ∧ detail1 (.err e d0 d1) = d1

/-- 60_exceptions.md R214: an error response changes no state but the response, except that RX.BYTE answering
RxOverflow empties the splitter. The request it answers is gone (log 4). -/
def Obligations.ErrorChangesNoState : Prop :=
  ∀ (s t : State) (e : ErrName) (d0 d1 : Half), step s = .next t → t.response = some (.err e d0 d1) →
    t.cfg = s.cfg ∧ t.crc = s.crc ∧ t.pending = s.pending.tail ∧
    ((e ≠ .rxOverflow ∧ t.rxb = s.rxb) ∨ (e = .rxOverflow ∧ s.rxb.length = 255 ∧ t.rxb = []))

/-- 10_state.md section 2: the configuration record is written by no step, reset included. -/
def Obligations.ConfigurationIsImmutable : Prop :=
  ∀ s t : State, step s = .next t → t.cfg = s.cfg

/-- 10_state.md R30: CRC.INIT and CRC.UPD alone write the accumulator; CRC.UPD and CRC.FIN alone read it, so no
other operation's answer or effect depends on it; its reset value. -/
def Obligations.AccumulatorReadersAndWriters : Prop :=
  (∀ (i : Instr) (s t : State), exec i s = .next t → t.crc ≠ s.crc → i = .crcInit ∨ ∃ b, i = .crcUpd b) ∧
  (∀ s t : State, exec .crcInit s = .next t → t.crc = 0xFFFF) ∧
  (∀ (i : Instr) (s t u : State) (c : Half), (∀ b, i ≠ .crcUpd b) → i ≠ .crcFin →
    exec i s = .next t → exec i { s with crc := c } = .next u →
      u.response = t.response ∧ u.rxb = t.rxb ∧ u.cfg = t.cfg ∧ u.pending = t.pending ∧
      (u.crc = c ∨ u.crc = t.crc)) ∧
  State.reset.crc = 0xFFFF

/-- 20_memory.md section 3 (an inference of the spec): every other operation is a function of the configuration
and its operands; it answers, changes nothing but the response, and repeating it gives the same response. That
the 21 wire rows of the table are run alone and answer so is the model's choice (log 7). -/
def Obligations.PureOperationsReadConfigurationOnly : Prop :=
  ∀ i : Instr, isPure i = true → ∀ s t : State, s.cfg = t.cfg →
    ∃ r, answers i s r ∧ answers i t r ∧ answers i { s with response := some r } r

/-- 10_state.md section 4: RX.BYTE and RX.FLUSH alone write the splitter's bytes. -/
def Obligations.SplitterWriters : Prop :=
  ∀ (i : Instr) (s t : State), exec i s = .next t → t.rxb ≠ s.rxb → (∃ b, i = .rxByte b) ∨ i = .rxFlush

/-- 30_encoding.md section 4, first row: a request whose OP is in no row answers IllegalOp and changes nothing.
That the request is the first pending item is the model's choice (log 4). -/
def Obligations.IllegalOpIsAnswered : Prop :=
  ∀ (s : State) (op : Byte) (ops : Buffer) (rest : List Input),
    op.toNat ∉ [0x10, 0x11, 0x12, 0x13, 0x20, 0x21, 0x22, 0x23, 0x24, 0x30, 0x31, 0x40, 0x41, 0x42, 0x43] →
    s.pending = .request (op :: ops) :: rest →
      step s = .next { s with pending := rest, response := some (.err .illegalOp (op.setWidth 16) 0) }

/-- The step runs the decoded instruction, on the state with its request taken; with nothing pending the block
idles and keeps its state (60_exceptions.md section 5). That requests wait in `pending` and that idling clears
the response are the model's choices (log 4, log 5). -/
def Obligations.StepRunsTheDecodedInstruction : Prop :=
  (∀ (s : State) (item : Input) (rest : List Input) (i : Instr),
    s.pending = item :: rest → decodeInput item = .instr i → step s = exec i { s with pending := rest }) ∧
  ∀ s : State, s.pending = [] → step s = .next { s with response := none }

/-- 70_reset_and_hazards.md section 1 and 10_state.md section 8: the reset input and the state it leaves; that
its arrival is a pending item is the model's choice (log 4). -/
def Obligations.ResetLeavesTheSpecValues : Prop :=
  (∀ (s : State) (rest : List Input), s.pending = .reset :: rest →
    step s = .next { cfg := s.cfg, crc := 0xFFFF, rxb := [], pending := rest, response := none }) ∧
  (∀ cfg : Cfg, (State.boot cfg).cfg = cfg ∧ (State.boot cfg).crc = 0xFFFF ∧ State.rxn (State.boot cfg) = 0 ∧
    (State.boot cfg).response = none) ∧
  State.reset.crc = 0xFFFF ∧ State.rxn State.reset = 0 ∧ State.reset.response = none

/-- The invariant of a reachable state (10_state.md section 4, 43_deframer.md section 3): the configuration is
legal, the splitter holds at most 255 bytes and no complete frame. Every step keeps it, from every state that
has it. That the channel table is listed in rising order is the model's choice (log 2). -/
def Obligations.InvariantIsKept : Prop :=
  ∀ s t : State, inv s = true → step s = .next t → inv t = true

/-- The invariant holds after reset, of any instance with a legal configuration. The configuration of
`State.reset` itself is the model's choice (log 1). -/
def Obligations.InvariantHoldsAfterReset : Prop :=
  inv State.reset = true ∧ ∀ cfg : Cfg, cfgLegal cfg = true → inv (State.boot cfg) = true

/-- 60_exceptions.md section 1: no error stops the block. A step stops on a malformed item only, and never on the
encoding of a well-formed instruction. Model's choices: which items are malformed (log 6); that what the host
presents waits in `pending` and a step takes its first item (log 4); that the encodings of the wire rows are run
(log 7). -/
def Obligations.OnlyMalformedItemsStop : Prop :=
  (∀ (s : State) (r : Refusal), step s = .refused r ↔
    ∃ item rest b, s.pending = item :: rest ∧ decodeInput item = .bad b ∧ r = .malformed b) ∧
  (∀ (s : State) (f : Fault), step s ≠ .fault f) ∧
  ∀ (i : Instr) (s : State) (rest : List Input), i.wellFormed = true → s.pending = encode i :: rest →
    ∃ t, step s = .next t ∧ t.pending = rest

/-! ## Encodings -/

/-- Decoding the encoding of a well-formed instruction gives it back, every operand at every value. The layout of
a request's operands is the model's choice (log 8); the command codes, the cfg1 byte and the packets are the
spec's (30_encoding.md). -/
def Obligations.DecodeInvertsEncode : Prop :=
  ∀ i : Instr, i.wellFormed = true → decodeInput (encode i) = .instr i

/-- On the wire each item has one reading and is the encoding of what it reads as: a cfg1 byte, a packet of a
row's shape. A frame of no row's shape is handed to the decoder whole (log 7). -/
def Obligations.EncodeInvertsDecodeOnTheWire : Prop :=
  (∀ b : Byte, encode (decodeCfg1 b) = .cfg1 b) ∧
  (∀ (bytes : Buffer) (i : Instr), decodeInput (.spFrame bytes) = .instr i →
    encode i = .spFrame bytes ∨ i = .dec bytes) ∧
  ∀ (bytes : Buffer) (i : Instr), decodeInput (.fsFrame bytes) = .instr i →
    encode i = .fsFrame bytes ∨ i = .fsDec bytes

/-- Words written out from 30_encoding.md's tables decode to what they stand for (operand order and byte order of
a request: log 8). -/
def Obligations.WrittenWordsDecode : Prop :=
  decodeInput (.request [0x11, 0xA5]) = .instr (.crcUpd 0xA5) ∧
  decodeInput (.request [0x20, 0x04, 0x02]) = .instr (.getp 4 2) ∧
  decodeInput (.request [0x41, 0x02, 0x0D, 0x0A]) = .instr (.fsDec [0x0D, 0x0A]) ∧
  decodeInput (.cfg1 0x4E) = .instr (.cfg1Float8 4) ∧
  decodeInput (.spFrame [0xA5, 0x01, 0x0D, 0x34, 0x12, 0x15, 0x00, 0xEF, 0xBE, 0x07, 0xB1, 0x0D, 0x0A]) =
    .instr (.spPkt2 0xA5 0x01 0x1234 1 1 0x00 0xBEEF 0xB107) ∧
  decodeInput (.fsFrame [0xA5, 0x02, 0x0F, 0x00, 0x00, 0x80, 0x3F, 0x00, 0x00, 0x00, 0x40, 0x6C, 0x43, 0x0D, 0x0A]) =
    .instr (.fsPkt 0xA5 0x02 0x0F [0x3F800000, 0x40000000] 0x436C)
end

