-- ==== Sys2Proof/Laws/Bytes.lean ====
section
/-! SUPPORT. Lemmas of Machine/Bytes.lean: reads inside a buffer, little-endian numbers, the cfg1 fields. -/

namespace Sys2Proof.Laws

open Machine

/-- A read inside the buffer gives its byte (00_scope.md R11). -/
theorem byteAt_of_lt {buf : Buffer} {i : Nat} (h : i < buf.length) : byteAt buf i = buf[i] := by
  simp [byteAt, List.getD, h]

/-- A read of a byte that is there. -/
theorem byteAt_of_getElem? {buf : Buffer} {i : Nat} {b : Byte} (h : buf[i]? = some b) : byteAt buf i = b := by
  simp [byteAt, List.getD, h]

@[simp] theorem byteAt_cons_zero (b : Byte) (buf : Buffer) : byteAt (b :: buf) 0 = b := rfl

/-- Inside the shorter buffer, a read does not see what is appended. -/
theorem byteAt_append_left {a b : Buffer} {i : Nat} (h : i < a.length) : byteAt (a ++ b) i = byteAt a i := by
  simp [byteAt, List.getD, List.getElem?_append_left h]

/-- Past the first buffer but inside the second, a read is a read of the second. -/
theorem byteAt_append_right {a b : Buffer} {i : Nat} (h : i < b.length) :
    byteAt (a ++ b) (a.length + i) = byteAt b i := by
  simp [byteAt, List.getD, h]

@[simp] theorem bytesAt_length (buf : Buffer) (off n : Nat) : (bytesAt buf off n).length = n := by
  induction n generalizing off with
  | zero => rfl
  | succ n ih => simp [bytesAt, ih]

/-- Reads that stay inside the buffer give its slice (20_memory.md R55). -/
theorem bytesAt_eq_slice {buf : Buffer} {off n : Nat} (h : off + n ≤ buf.length) :
    bytesAt buf off n = slice buf off (off + n) := by
  induction n generalizing off with
  | zero => simp [bytesAt, slice]
  | succ n ih =>
    have hlt : off < buf.length := by omega
    have key := ih (off := off + 1) (by omega)
    simp only [slice, Nat.add_sub_cancel_left] at key ⊢
    rw [bytesAt, key, byteAt_of_lt hlt, List.drop_eq_getElem_cons hlt, List.take_succ_cons]

@[simp] theorem slice_length (buf : Buffer) (a b : Nat) :
    (slice buf a b).length = min (b - a) (buf.length - a) := by
  simp [slice]

@[simp] theorem leBytes_length (n v : Nat) : (leBytes n v).length = n := by
  induction n generalizing v with
  | zero => rfl
  | succ n ih => simp [leBytes, ih]

/-- Writing a number little-endian and reading it back gives it, within its width (20_memory.md R50). -/
theorem leNat_leBytes (n v : Nat) : leNat (leBytes n v) = v % 256 ^ n := by
  induction n generalizing v with
  | zero => simp [leBytes, leNat, Nat.mod_one]
  | succ n ih =>
    have hp : (256 : Nat) ^ (n + 1) = 256 * 256 ^ n := Nat.pow_succ'
    rw [hp, Nat.mod_mul, leBytes, leNat, ih, BitVec.toNat_ofNat]

/-- Reading a little-endian number and writing it back gives the bytes. -/
theorem leBytes_leNat (buf : Buffer) : leBytes buf.length (leNat buf) = buf := by
  induction buf with
  | nil => rfl
  | cons b bs ih =>
    have hb : b.toNat < 256 := b.isLt
    have hdiv : (b.toNat + 256 * leNat bs) / 256 = leNat bs := by omega
    have hmod : BitVec.ofNat 8 (b.toNat + 256 * leNat bs) = b := by
      apply BitVec.eq_of_toNat_eq
      simp only [BitVec.toNat_ofNat]
      omega
    simp only [List.length_cons, leBytes, leNat, hdiv, hmod, ih]

/-- The number of `n` bytes is below `256 ^ n`. -/
theorem leNat_lt (buf : Buffer) : leNat buf < 256 ^ buf.length := by
  induction buf with
  | nil => simp [leNat]
  | cons b bs ih =>
    have hb : b.toNat < 256 := b.isLt
    simp only [leNat, List.length_cons, Nat.pow_succ]
    omega

theorem pow_256 (n : Nat) : (256 : Nat) ^ n = 2 ^ (8 * n) := by
  rw [Nat.pow_mul]

/-- `MemRead` inside the buffer is the little-endian number of the slice (00_scope.md R12). -/
theorem memRead_toNat {buf : Buffer} {off n : Nat} (h : off + n ≤ buf.length) :
    (memRead buf off n).toNat = leNat (slice buf off (off + n)) := by
  have hl : (slice buf off (off + n)).length = n := by simp; omega
  have hlt := leNat_lt (slice buf off (off + n))
  rw [hl, pow_256] at hlt
  rw [memRead, bytesAt_eq_slice h, BitVec.toNat_ofNat, Nat.mod_eq_of_lt hlt]

/-- `MemWrite` over a whole buffer leaves exactly the written bytes (00_scope.md R12). -/
theorem memWrite_whole {buf : Buffer} {n : Nat} (v : BitVec (8 * n)) (h : buf.length = n) :
    memWrite buf 0 n v = leBytes n v.toNat := by
  simp [memWrite, ← h]

@[simp] theorem newBuffer_length (n : Nat) : (newBuffer n).length = n := by
  simp [newBuffer]

/-- Packing a cfg1 byte and taking its fields apart gives them back, in either layout (30_encoding.md R74). -/
theorem cfg1_unpack (layout : Cfg1Layout) (m : BitVec 4) (s d : BitVec 2) :
    cfg1Mtf layout (cfg1Pack layout m s d) = m ∧ cfg1Szf layout (cfg1Pack layout m s d) = s ∧
      cfg1Dtf layout (cfg1Pack layout m s d) = d := by
  cases layout <;> revert m s d <;> decide

/-- The size codes and the sizes stand for each other (30_encoding.md R76). -/
theorem szfOfSize_eq_some {n : Nat} {s : BitVec 2} : szfOfSize n = some s ↔ sizeOfSzf s = n := by
  have hs : ∀ s : BitVec 2, s = 0 ∨ s = 1 ∨ s = 2 ∨ s = 3 := by decide
  constructor
  · intro h
    unfold szfOfSize at h
    split at h
    · cases h; subst_vars; rfl
    · split at h
      · cases h; subst_vars; rfl
      · split at h
        · cases h; subst_vars; rfl
        · split at h
          · cases h; subst_vars; rfl
          · cases h
  · intro h
    rcases hs s with rfl | rfl | rfl | rfl <;> (simp [sizeOfSzf] at h; subst h; rfl)

end Sys2Proof.Laws
end

