-- ==== Sys2Proof/Laws/Ops.lean ====
section
/-! SUPPORT. What each shared operation can do, once: when it succeeds, with what, and what each failure says. -/

namespace Sys2Proof.Laws

open Machine

/-! ## Kinds -/

/-- A kind that `kind_of` answers has the size that was asked for, and that size is legal (41_field.md R121). -/
theorem kindOf_ok {p : Params} {n : Nat} {dt : BitVec 2} {k : Kind} (h : kindOf p n dt = .ok k) :
    legalSize n = true ∧ Kind.bytes k = n ∧ ∃ t, dataTypeOf p dt = some t ∧ kindFor p n t = some k := by
  unfold kindOf at h
  split at h
  · rename_i hl
    refine ⟨hl, ?_⟩
    cases hd : dataTypeOf p dt with
    | none => rw [hd] at h; cases h
    | some t =>
      rw [hd] at h
      simp only at h
      cases hk : kindFor p n t with
      | none => rw [hk] at h; cases h
      | some k' =>
        rw [hk] at h
        cases h
        refine ⟨?_, t, rfl, hk⟩
        have hn : n = 1 ∨ n = 2 ∨ n = 4 ∨ n = 8 := by simpa [legalSize, or_assoc] using hl
        rcases hn with rfl | rfl | rfl | rfl <;> cases t <;> cases hc : p.commandKind <;>
          simp_all [kindFor, signedKind, unsignedKind, floatKind] <;> subst hk <;> rfl
  · cases h

/-- What `kind_of` answers for an illegal size (41_field.md R121). -/
theorem kindOf_illegal {p : Params} {n : Nat} {dt : BitVec 2} (h : legalSize n = false) :
    kindOf p n dt = .err .unsupportedSize (half n) 0 := by
  simp [kindOf, h]

/-- With the DT_CODE taken every 2-bit code is a data type (30_encoding.md R75). -/
theorem dataTypeOf_params (dt : BitVec 2) : ∃ t, dataTypeOf params dt = some t := by
  apply Option.isSome_iff_exists.mp
  revert dt
  decide

/-! ## Field unit -/

/-- PARSE succeeds with the kind of its length and type (41_field.md R126). -/
theorem parse_ok_iff {p : Params} {buf : Buffer} {dt : BitVec 2} {k : Kind} {v : Val} :
    parse p buf dt = .ok (k, v) ↔ kindOf p buf.length dt = .ok k ∧ v = valForm k (memRead buf 0 buf.length) := by
  unfold parse
  cases h : kindOf p buf.length dt with
  | ok k' =>
    constructor
    · intro e; cases e; exact ⟨rfl, rfl⟩
    · rintro ⟨e, rfl⟩; cases e; rfl
  | err e d0 d1 =>
    constructor
    · intro h; cases h
    · rintro ⟨h, -⟩; cases h

/-- GENP succeeds with the little-endian bytes of a value that fits (41_field.md R128). -/
theorem genPayload_ok_iff {p : Params} {dt : BitVec 2} {n : Nat} {v : Val} {out : Buffer} :
    genPayload p dt n v = .ok out ↔
      ∃ k, kindOf p n dt = .ok k ∧ fits k v = true ∧ out = leBytes n (v.setWidth (8 * n)).toNat := by
  have hw : memWrite (newBuffer n) 0 n (v.setWidth (8 * n)) = leBytes n (v.setWidth (8 * n)).toNat :=
    memWrite_whole _ (newBuffer_length n)
  unfold genPayload
  cases h : kindOf p n dt with
  | ok k =>
    simp only
    split
    · constructor
      · intro e; cases e; exact ⟨k, rfl, ‹_›, hw⟩
      · rintro ⟨k', e, -, rfl⟩; rw [hw]
    · constructor
      · intro e; cases e
      · rintro ⟨k', e, hf, -⟩; cases e; exact absurd hf ‹_›
  | err e d0 d1 =>
    constructor
    · intro h; cases h
    · rintro ⟨k, h, -⟩; cases h

/-- U16PK succeeds on 0 to 65535 (41_field.md R130). -/
theorem u16Pack_ok_iff {v : BitVec 32} {out : Buffer} :
    u16Pack v = .ok out ↔ 0 ≤ v.toInt ∧ v.toInt ≤ 65535 ∧ out = [v.extractLsb' 0 8, v.extractLsb' 8 8] := by
  unfold u16Pack
  split
  · constructor
    · intro h; cases h
    · rintro ⟨h0, h1, -⟩; omega
  · constructor
    · intro h; cases h; exact ⟨by omega, by omega, rfl⟩
    · rintro ⟨-, -, rfl⟩; rfl

/-! ## Decoders -/

/-- The checks of a frame pass, or the first that fails is reported (43_deframer.md R172 to R174). -/
theorem checkedFrame_ok_iff {α : Type} {p : Params} {cfg : Cfg} {buf : Buffer} {k : Result α} {v : α} :
    checkedFrame p cfg buf k = .ok v ↔
      buf.length = (byteAt buf 2).toNat ∧ byteAt buf 0 = cfg.ver0 ∧ byteAt buf 1 = cfg.ver1 ∧
        crc16 p (slice buf 0 (buf.length - 4)) = (memRead buf (buf.length - 4) 2).setWidth 16 ∧ k = .ok v := by
  unfold checkedFrame
  by_cases h1 : buf.length = (byteAt buf 2).toNat
  · by_cases h2 : byteAt buf 0 = cfg.ver0
    · by_cases h3 : byteAt buf 1 = cfg.ver1
      · by_cases h4 : crc16 p (slice buf 0 (buf.length - 4)) = (memRead buf (buf.length - 4) 2).setWidth 16
        · rw [if_neg (by simpa using h1), if_neg (by simp [h2, h3]), if_neg (by simpa using h4)]
          exact ⟨fun h => ⟨h1, h2, h3, h4, h⟩, fun h => h.2.2.2.2⟩
        · rw [if_neg (by simpa using h1), if_neg (by simp [h2, h3]), if_pos h4]
          constructor
          · intro h; cases h
          · rintro ⟨-, -, -, h, -⟩; exact absurd h h4
      · simp [← h1, h2, h3]
    · simp [← h1, h2]
  · simp [h1]

/-- Steps 6 to 8 of DEC succeed exactly so (43_deframer.md R176 to R178). -/
theorem decodeFields_ok_iff {p : Params} {cfg : Cfg} {buf : Buffer} {m : Msg} :
    decodeFields p cfg buf = .ok m ↔
      ∃ e k v,
        sizeOfSzf (cfg1Szf p.layout (byteAt buf 5)) = buf.length - spOverhead ∧
        channel cfg (cfg1Mtf p.layout (byteAt buf 5)).toNat = some e ∧
        parse p (slice buf 7 (7 + sizeOfSzf (cfg1Szf p.layout (byteAt buf 5)))) (cfg1Dtf p.layout (byteAt buf 5))
          = .ok (k, v) ∧
        (∃ t, dataTypeOf p (cfg1Dtf p.layout (byteAt buf 5)) = some t) ∧
        m = {
          seq := (memRead buf 3 2).setWidth 16, mt := (cfg1Mtf p.layout (byteAt buf 5)).setWidth 8,
          dt := cfg1Dtf p.layout (byteAt buf 5),
          size := BitVec.ofNat 4 (sizeOfSzf (cfg1Szf p.layout (byteAt buf 5))), kind := k, cfg2 := byteAt buf 6,
          raw := slice buf 7 (7 + sizeOfSzf (cfg1Szf p.layout (byteAt buf 5))), val := v, rval := none,
          entry := some e } := by
  unfold decodeFields
  simp only
  cases hd : dataTypeOf p (cfg1Dtf p.layout (byteAt buf 5)) with
  | none => simp
  | some t =>
    simp only
    by_cases hn : sizeOfSzf (cfg1Szf p.layout (byteAt buf 5)) = buf.length - spOverhead
    · rw [if_neg (by simpa using hn)]
      cases hc : channel cfg (cfg1Mtf p.layout (byteAt buf 5)).toNat with
      | none => simp
      | some e =>
        simp only
        cases hp : parse p (slice buf 7 (7 + sizeOfSzf (cfg1Szf p.layout (byteAt buf 5))))
          (cfg1Dtf p.layout (byteAt buf 5)) with
        | err er d0 d1 => simp
        | ok kv =>
          obtain ⟨k, v⟩ := kv
          constructor
          · intro h; cases h; exact ⟨e, k, v, hn, rfl, rfl, ⟨t, rfl⟩, rfl⟩
          · rintro ⟨e', k', v', -, he, hkv, -, rfl⟩
            cases he; cases hkv; rfl
    · rw [if_pos (by simpa using hn)]
      constructor
      · intro h; cases h
      · rintro ⟨-, -, -, h, -⟩; exact absurd h hn

/-- DEC succeeds when its length and its checks do (43_deframer.md R170). -/
theorem decodeSp_ok_iff {p : Params} {cfg : Cfg} {buf : Buffer} {m : Msg} :
    decodeSp p cfg buf = .ok m ↔
      spOverhead < buf.length ∧ checkedFrame p cfg buf (decodeFields p cfg buf) = .ok m := by
  unfold decodeSp
  split
  · constructor
    · intro h; cases h
    · rintro ⟨h, -⟩; omega
  · constructor
    · intro h; exact ⟨by omega, h⟩
    · exact And.right

/-- FS.DEC succeeds with one message per configured channel (43_deframer.md R180). -/
theorem decodeFs_ok_iff {p : Params} {cfg : Cfg} {buf : Buffer} {ms : List Msg} :
    decodeFs p cfg buf = .ok ms ↔
      buf.length = fsLength (Cfg.fsK cfg) ∧
        checkedFrame p cfg buf (.ok (fsMessages p buf 3 cfg.fsCh)) = .ok ms := by
  unfold decodeFs
  split
  · constructor
    · intro h; cases h
    · rintro ⟨h, -⟩; contradiction
  · constructor
    · intro h; exact ⟨by omega, h⟩
    · exact And.right

@[simp] theorem fsMessages_length (p : Params) (buf : Buffer) (off : Nat) (tags : List Byte) :
    (fsMessages p buf off tags).length = tags.length := by
  induction tags generalizing off with
  | nil => rfl
  | cons t ts ih => simp [fsMessages, ih]

/-- The message of the i-th channel is read at its own offset (43_deframer.md R185). -/
theorem fsMessages_getElem? (p : Params) (buf : Buffer) (off : Nat) (tags : List Byte) (i : Nat) :
    (fsMessages p buf off tags)[i]? = tags[i]?.map (fun t => fsMessage p buf (off + 4 * i) t) := by
  induction tags generalizing off i with
  | nil => rfl
  | cons t ts ih =>
    cases i with
    | zero => rfl
    | succ i =>
      simp only [fsMessages, List.getElem?_cons_succ, ih, fsField]
      congr 2
      funext t
      congr 1
      omega

/-! ## Framer -/

/-- ENC succeeds exactly so, with this packet (42_framer.md R152). -/
theorem encodeSp_ok_iff {p : Params} {cfg : Cfg} {seq mt : BitVec 32} {val : Val} {pkt : Buffer} :
    encodeSp p cfg seq mt val = .ok pkt ↔
      ∃ e seqBytes szf payload,
        channel cfg mt.toInt = some e ∧ u16Pack seq = .ok seqBytes ∧ szfOfSize e.size.toNat = some szf ∧
        mt.toInt ≤ mtWireMax ∧ genPayload p e.dt e.size.toNat val = .ok payload ∧
        pkt = withTrailer
          (spBody cfg.ver0 cfg.ver1 (BitVec.ofNat 8 (spOverhead + e.size.toNat)) seqBytes
            (cfg1Pack p.layout (mt.extractLsb' 0 4) szf e.dt) e.cfg2 payload)
          (crc16 p (spBody cfg.ver0 cfg.ver1 (BitVec.ofNat 8 (spOverhead + e.size.toNat)) seqBytes
            (cfg1Pack p.layout (mt.extractLsb' 0 4) szf e.dt) e.cfg2 payload)) := by
  unfold encodeSp
  cases hc : channel cfg mt.toInt with
  | none => simp
  | some e =>
    cases hu : u16Pack seq with
    | err er d0 d1 => simp
    | ok sb =>
      cases hz : szfOfSize e.size.toNat with
      | none =>
        simp only [hz]
        constructor
        · intro h; cases h
        · rintro ⟨e', sb', szf, pl, he, -, h, -⟩
          cases he
          rw [hz] at h
          cases h
      | some szf =>
        simp only [hz, encodeTail]
        by_cases hm : mt.toInt > mtWireMax
        · rw [if_pos hm]
          constructor
          · intro h; cases h
          · rintro ⟨-, -, -, -, -, -, -, h, -⟩; omega
        · rw [if_neg hm]
          cases hg : genPayload p e.dt e.size.toNat val with
          | err er d0 d1 =>
            simp only
            constructor
            · intro h; cases h
            · rintro ⟨e', sb', szf', pl, he, -, -, -, h, -⟩
              cases he
              rw [hg] at h
              cases h
          | ok pl =>
            simp only
            constructor
            · intro h
              cases h
              exact ⟨e, sb, szf, pl, rfl, rfl, hz, by omega, hg, rfl⟩
            · rintro ⟨e', sb', szf', pl', he, hsb, hz', -, hg', rfl⟩
              cases he; cases hsb
              rw [hz] at hz'; cases hz'
              rw [hg] at hg'; cases hg'
              rfl

/-! ## Splitter -/

/-- A full splitter answers RxOverflow and is empty (43_deframer.md R192). -/
theorem splitterPush_full {p : Params} {cfg : Cfg} {rxb : Buffer} {b : Byte} (h : rxb.length = bufCap) :
    splitterPush p cfg rxb b = ([], .err .rxOverflow (half bufCap) 0) := by
  simp [splitterPush, h]

/-- A byte that ends a frame hands it to the decoder and leaves the splitter empty (43_deframer.md R191). -/
theorem splitterPush_frame {p : Params} {cfg : Cfg} {rxb : Buffer} {b : Byte} (h : rxb.length ≠ bufCap)
    (he : endsFrame (rxb ++ [b]) = true) :
    splitterPush p cfg rxb b = ([], .ok (.frame (decodeFrame p cfg (rxb ++ [b])))) := by
  simp [splitterPush, h, he]

/-- Any other byte is appended (43_deframer.md R191). -/
theorem splitterPush_append {p : Params} {cfg : Cfg} {rxb : Buffer} {b : Byte} (h : rxb.length ≠ bufCap)
    (he : endsFrame (rxb ++ [b]) = false) : splitterPush p cfg rxb b = (rxb ++ [b], .ok .noFrame) := by
  simp [splitterPush, h, he]

/-- A buffer just grown by `b` ends a frame when `b` is the second terminator byte and the first stands before
it. -/
theorem endsFrame_append (rxb : Buffer) (b : Byte) :
    endsFrame (rxb ++ [b]) = (rxb.getLast? == some term0 && b == term1) := by
  rcases List.eq_nil_or_concat rxb with rfl | ⟨init, last, rfl⟩
  · simp [endsFrame]
  · have h1 : byteAt (init ++ [last] ++ [b]) (init.length + 1 + 1 - 2) = last := by
      apply byteAt_of_getElem?
      simp
    have h2 : byteAt (init ++ [last] ++ [b]) (init.length + 1 + 1 - 1) = b := by
      apply byteAt_of_getElem?
      simp
    simp [endsFrame, List.concat_eq_append] at h1 h2 ⊢
    simp [h1, h2]

end Sys2Proof.Laws
end

