-- ==== Sys2Proof/Laws/PerInstr.lean ====
section
/-! SUPPORT. One law for each instruction: its encoding carries the fixed bits of its row of
spec/opcode_table.json (30_encoding.md R72, R78, R80, R82). -/

namespace Sys2Proof.Laws

open Machine

/-- The item is a request with this command code. -/
def commandIs (code : Byte) : Input → Bool
  | .request (op :: _) => op == code
  | _ => false

/-- The item is a cfg1 byte with these low four bits. -/
def kindRowIs (row : BitVec 4) : Input → Bool
  | .cfg1 b => b.extractLsb' 0 4 == row
  | _ => false

/-- The item is a frame with the fixed bits of a single-packet row. -/
def spRowIs (n : Nat) (szf : BitVec 2) : Input → Bool
  | .spFrame bytes => hasSpShape n szf bytes
  | _ => false

/-- The item is a frame with the fixed bits of the float-sequence row. -/
def fsRowIs : Input → Bool
  | .fsFrame bytes => hasFsShape bytes
  | _ => false

/-- The fixed bits of the row an instruction stands for. -/
def rowBits : Instr → Input → Bool
  | .crcInit => commandIs 0x10
  | .crcUpd _ => commandIs 0x11
  | .crcFin => commandIs 0x12
  | .crc16 _ => commandIs 0x13
  | .getp _ _ => commandIs 0x20
  | .parse _ _ => commandIs 0x21
  | .genp _ _ _ => commandIs 0x22
  | .u16pk _ => commandIs 0x23
  | .u16up _ _ => commandIs 0x24
  | .enc _ _ _ => commandIs 0x30
  | .fsEnc => commandIs 0x31
  | .dec _ => commandIs 0x40
  | .fsDec _ => commandIs 0x41
  | .rxByte _ => commandIs 0x42
  | .rxFlush => commandIs 0x43
  | .cfg1Int1 _ => kindRowIs 0
  | .cfg1Uint1 _ => kindRowIs 1
  | .cfg1Float1 _ => kindRowIs 2
  | .cfg1Command1 _ => kindRowIs 3
  | .cfg1Int2 _ => kindRowIs 4
  | .cfg1Uint2 _ => kindRowIs 5
  | .cfg1Float2 _ => kindRowIs 6
  | .cfg1Command2 _ => kindRowIs 7
  | .cfg1Int4 _ => kindRowIs 8
  | .cfg1Uint4 _ => kindRowIs 9
  | .cfg1Float4 _ => kindRowIs 10
  | .cfg1Command4 _ => kindRowIs 11
  | .cfg1Int8 _ => kindRowIs 12
  | .cfg1Uint8 _ => kindRowIs 13
  | .cfg1Float8 _ => kindRowIs 14
  | .cfg1Command8 _ => kindRowIs 15
  | .spPkt1 _ _ _ _ _ _ _ _ => spRowIs 1 0
  | .spPkt2 _ _ _ _ _ _ _ _ => spRowIs 2 1
  | .spPkt4 _ _ _ _ _ _ _ _ => spRowIs 4 2
  | .spPkt8 _ _ _ _ _ _ _ _ => spRowIs 8 3
  | .fsPkt _ _ _ _ _ => fsRowIs

/-- The family: the encoding of an instruction carries its row's fixed bits. -/
def RowBits.Statement (i : Instr) : Prop :=
  rowBits i (encode i) = true

/-- A packet built from the fields of a row has the row's shape (30_encoding.md R72). -/
theorem spWire_shape {verb0 verb1 : Byte} {n : Nat} {seq : Half} {mtf : BitVec 4} {szf dtf : BitVec 2}
    {cfg2 : Byte} {payload : Nat} {crcf : Half} :
    hasSpShape n szf (spWire verb0 verb1 n seq (cfg1Pack .lsb0 mtf szf dtf) cfg2 payload crcf) = true := by
  have hs := (cfg1_unpack .lsb0 mtf szf dtf).2.1
  have hb : (spBody verb0 verb1 (BitVec.ofNat 8 (spOverhead + n)) (leBytes 2 seq.toNat)
      (cfg1Pack .lsb0 mtf szf dtf) cfg2 (leBytes n payload) ++ leBytes 2 crcf.toNat).length = 9 + n := by
    simp [spBody]; omega
  have h9 : byteAt (spWire verb0 verb1 n seq (cfg1Pack .lsb0 mtf szf dtf) cfg2 payload crcf) (9 + n) = term0 := by
    apply byteAt_of_getElem?
    rw [spWire, withTrailer, List.getElem?_append_right (by omega), hb, Nat.sub_self]
    rfl
  have h10 : byteAt (spWire verb0 verb1 n seq (cfg1Pack .lsb0 mtf szf dtf) cfg2 payload crcf) (10 + n) = term1 := by
    apply byteAt_of_getElem?
    rw [spWire, withTrailer, List.getElem?_append_right (by omega), hb,
      show 10 + n - (9 + n) = 1 by omega]
    rfl
  have h5 : byteAt (spWire verb0 verb1 n seq (cfg1Pack .lsb0 mtf szf dtf) cfg2 payload crcf) 5
      = cfg1Pack .lsb0 mtf szf dtf := by
    apply byteAt_of_getElem?
    simp [spWire, withTrailer, spBody, leBytes]
  have h2 : byteAt (spWire verb0 verb1 n seq (cfg1Pack .lsb0 mtf szf dtf) cfg2 payload crcf) 2
      = BitVec.ofNat 8 (spOverhead + n) := by
    apply byteAt_of_getElem?
    simp [spWire, withTrailer, spBody, leBytes]
  have hl : (spWire verb0 verb1 n seq (cfg1Pack .lsb0 mtf szf dtf) cfg2 payload crcf).length = spOverhead + n := by
    simp [spWire, withTrailer, spBody, spOverhead]
    omega
  simp [hasSpShape, hl, h2, h5, hs, h9, h10]

@[simp] theorem flatMap_leBytes_length (flds : List (BitVec 32)) :
    (flds.flatMap (fun f => leBytes 4 f.toNat)).length = 4 * flds.length := by
  induction flds with
  | nil => rfl
  | cons f fs ih => simp [List.flatMap_cons, ih]; omega

/-- The length of a float-sequence packet (30_encoding.md R70, R78). -/
theorem fsWire_length (verb0 verb1 lenb : Byte) (flds : List (BitVec 32)) (crcf : Half) :
    (fsWire verb0 verb1 lenb flds crcf).length = fsLength flds.length := by
  simp [fsWire, withTrailer, fsBody, fsLength, fsOverhead, fsField]
  omega

/-- A packet built from the fields of the float-sequence row has its shape (30_encoding.md R78). -/
theorem fsWire_shape (verb0 verb1 lenb : Byte) (flds : List (BitVec 32)) (crcf : Half) :
    hasFsShape (fsWire verb0 verb1 lenb flds crcf) = true := by
  have hl := fsWire_length verb0 verb1 lenb flds crcf
  have hc : fieldCount (fsLength flds.length) = flds.length := by
    simp [fieldCount, fsLength, fsOverhead, fsField]
  have h0 : byteAt (fsWire verb0 verb1 lenb flds crcf) (fsLength flds.length - 2) = term0 := by
    apply byteAt_of_getElem?
    simp only [fsWire, withTrailer]
    rw [List.getElem?_append_right (by simp [fsBody, fsLength, fsOverhead, fsField]; omega)]
    have : fsLength flds.length - 2 - (fsBody verb0 verb1 lenb flds ++ leBytes 2 crcf.toNat).length = 0 := by
      simp [fsBody, fsLength, fsOverhead, fsField]; omega
    rw [this]; rfl
  have h1 : byteAt (fsWire verb0 verb1 lenb flds crcf) (fsLength flds.length - 1) = term1 := by
    apply byteAt_of_getElem?
    simp only [fsWire, withTrailer]
    rw [List.getElem?_append_right (by simp [fsBody, fsLength, fsOverhead, fsField]; omega)]
    have : fsLength flds.length - 1 - (fsBody verb0 verb1 lenb flds ++ leBytes 2 crcf.toNat).length = 1 := by
      simp [fsBody, fsLength, fsOverhead, fsField]; omega
    rw [this]; rfl
  simp [hasFsShape, hl, hc, h0, h1]

theorem RowBits.crcInit : RowBits.Statement (.crcInit) := rfl
theorem RowBits.crcUpd (byte : Byte) : RowBits.Statement (.crcUpd byte) := rfl
theorem RowBits.crcFin : RowBits.Statement (.crcFin) := rfl
theorem RowBits.crc16 (buf : Buffer) : RowBits.Statement (.crc16 buf) := rfl
theorem RowBits.getp (size : BitVec 4) (dt : BitVec 2) : RowBits.Statement (.getp size dt) := rfl
theorem RowBits.parse (buf : Buffer) (dt : BitVec 2) : RowBits.Statement (.parse buf dt) := rfl
theorem RowBits.genp (dt : BitVec 2) (size : BitVec 4) (val : Val) : RowBits.Statement (.genp dt size val) := rfl
theorem RowBits.u16pk (v32 : BitVec 32) : RowBits.Statement (.u16pk v32) := rfl
theorem RowBits.u16up (b0 b1 : Byte) : RowBits.Statement (.u16up b0 b1) := rfl
theorem RowBits.enc (seq mt : BitVec 32) (val : Val) : RowBits.Statement (.enc seq mt val) := rfl
theorem RowBits.fsEnc : RowBits.Statement (.fsEnc) := rfl
theorem RowBits.dec (buf : Buffer) : RowBits.Statement (.dec buf) := rfl
theorem RowBits.fsDec (buf : Buffer) : RowBits.Statement (.fsDec buf) := rfl
theorem RowBits.rxByte (byte : Byte) : RowBits.Statement (.rxByte byte) := rfl
theorem RowBits.rxFlush : RowBits.Statement (.rxFlush) := rfl
theorem RowBits.cfg1Int1 (mtf : BitVec 4) : RowBits.Statement (.cfg1Int1 mtf) := by
  revert mtf; unfold RowBits.Statement; decide
theorem RowBits.cfg1Uint1 (mtf : BitVec 4) : RowBits.Statement (.cfg1Uint1 mtf) := by
  revert mtf; unfold RowBits.Statement; decide
theorem RowBits.cfg1Float1 (mtf : BitVec 4) : RowBits.Statement (.cfg1Float1 mtf) := by
  revert mtf; unfold RowBits.Statement; decide
theorem RowBits.cfg1Command1 (mtf : BitVec 4) : RowBits.Statement (.cfg1Command1 mtf) := by
  revert mtf; unfold RowBits.Statement; decide
theorem RowBits.cfg1Int2 (mtf : BitVec 4) : RowBits.Statement (.cfg1Int2 mtf) := by
  revert mtf; unfold RowBits.Statement; decide
theorem RowBits.cfg1Uint2 (mtf : BitVec 4) : RowBits.Statement (.cfg1Uint2 mtf) := by
  revert mtf; unfold RowBits.Statement; decide
theorem RowBits.cfg1Float2 (mtf : BitVec 4) : RowBits.Statement (.cfg1Float2 mtf) := by
  revert mtf; unfold RowBits.Statement; decide
theorem RowBits.cfg1Command2 (mtf : BitVec 4) : RowBits.Statement (.cfg1Command2 mtf) := by
  revert mtf; unfold RowBits.Statement; decide
theorem RowBits.cfg1Int4 (mtf : BitVec 4) : RowBits.Statement (.cfg1Int4 mtf) := by
  revert mtf; unfold RowBits.Statement; decide
theorem RowBits.cfg1Uint4 (mtf : BitVec 4) : RowBits.Statement (.cfg1Uint4 mtf) := by
  revert mtf; unfold RowBits.Statement; decide
theorem RowBits.cfg1Float4 (mtf : BitVec 4) : RowBits.Statement (.cfg1Float4 mtf) := by
  revert mtf; unfold RowBits.Statement; decide
theorem RowBits.cfg1Command4 (mtf : BitVec 4) : RowBits.Statement (.cfg1Command4 mtf) := by
  revert mtf; unfold RowBits.Statement; decide
theorem RowBits.cfg1Int8 (mtf : BitVec 4) : RowBits.Statement (.cfg1Int8 mtf) := by
  revert mtf; unfold RowBits.Statement; decide
theorem RowBits.cfg1Uint8 (mtf : BitVec 4) : RowBits.Statement (.cfg1Uint8 mtf) := by
  revert mtf; unfold RowBits.Statement; decide
theorem RowBits.cfg1Float8 (mtf : BitVec 4) : RowBits.Statement (.cfg1Float8 mtf) := by
  revert mtf; unfold RowBits.Statement; decide
theorem RowBits.cfg1Command8 (mtf : BitVec 4) : RowBits.Statement (.cfg1Command8 mtf) := by
  revert mtf; unfold RowBits.Statement; decide
theorem RowBits.spPkt1 (verb0 verb1 : Byte) (seq : Half) (mtf : BitVec 4) (dtf : BitVec 2) (cfg2 : Byte) (payload : BitVec 8)
    (crcf : Half) : RowBits.Statement (.spPkt1 verb0 verb1 seq mtf dtf cfg2 payload crcf) :=
  spWire_shape
theorem RowBits.spPkt2 (verb0 verb1 : Byte) (seq : Half) (mtf : BitVec 4) (dtf : BitVec 2) (cfg2 : Byte) (payload : BitVec 16)
    (crcf : Half) : RowBits.Statement (.spPkt2 verb0 verb1 seq mtf dtf cfg2 payload crcf) :=
  spWire_shape
theorem RowBits.spPkt4 (verb0 verb1 : Byte) (seq : Half) (mtf : BitVec 4) (dtf : BitVec 2) (cfg2 : Byte) (payload : BitVec 32)
    (crcf : Half) : RowBits.Statement (.spPkt4 verb0 verb1 seq mtf dtf cfg2 payload crcf) :=
  spWire_shape
theorem RowBits.spPkt8 (verb0 verb1 : Byte) (seq : Half) (mtf : BitVec 4) (dtf : BitVec 2) (cfg2 : Byte) (payload : BitVec 64)
    (crcf : Half) : RowBits.Statement (.spPkt8 verb0 verb1 seq mtf dtf cfg2 payload crcf) :=
  spWire_shape
theorem RowBits.fsPkt (verb0 verb1 lenb : Byte) (flds : List (BitVec 32)) (crcf : Half) :
    RowBits.Statement (.fsPkt verb0 verb1 lenb flds crcf) :=
  fsWire_shape verb0 verb1 lenb flds crcf

end Sys2Proof.Laws
end

