-- ==== Sys2Proof/Laws/State.lean ====
section
/-! SUPPORT. The small lemmas of the state: each named update, field by field. -/

namespace Sys2Proof.Laws

open Machine

@[simp] theorem respond_cfg (s : State) (r : Response) : (respond s r).cfg = s.cfg := rfl
@[simp] theorem respond_crc (s : State) (r : Response) : (respond s r).crc = s.crc := rfl
@[simp] theorem respond_rxb (s : State) (r : Response) : (respond s r).rxb = s.rxb := rfl
@[simp] theorem respond_pending (s : State) (r : Response) : (respond s r).pending = s.pending := rfl
@[simp] theorem respond_response (s : State) (r : Response) : (respond s r).response = some r := rfl
@[simp] theorem raise_cfg (s : State) (e : ErrName) (d0 d1 : Half) : (raise s e d0 d1).cfg = s.cfg := rfl
@[simp] theorem raise_crc (s : State) (e : ErrName) (d0 d1 : Half) : (raise s e d0 d1).crc = s.crc := rfl
@[simp] theorem raise_rxb (s : State) (e : ErrName) (d0 d1 : Half) : (raise s e d0 d1).rxb = s.rxb := rfl
@[simp] theorem raise_pending (s : State) (e : ErrName) (d0 d1 : Half) : (raise s e d0 d1).pending = s.pending := rfl
@[simp] theorem raise_response (s : State) (e : ErrName) (d0 d1 : Half) : (raise s e d0 d1).response = some (.err e d0 d1) := rfl
@[simp] theorem answerIllegalOp_cfg (s : State) (op : Byte) : (answerIllegalOp s op).cfg = s.cfg := rfl
@[simp] theorem answerIllegalOp_crc (s : State) (op : Byte) : (answerIllegalOp s op).crc = s.crc := rfl
@[simp] theorem answerIllegalOp_rxb (s : State) (op : Byte) : (answerIllegalOp s op).rxb = s.rxb := rfl
@[simp] theorem answerIllegalOp_pending (s : State) (op : Byte) : (answerIllegalOp s op).pending = s.pending := rfl
@[simp] theorem answerIllegalOp_response (s : State) (op : Byte) : (answerIllegalOp s op).response = some (.err .illegalOp (op.setWidth 16) 0) := rfl
@[simp] theorem idle_cfg (s : State) : (idle s).cfg = s.cfg := rfl
@[simp] theorem idle_crc (s : State) : (idle s).crc = s.crc := rfl
@[simp] theorem idle_rxb (s : State) : (idle s).rxb = s.rxb := rfl
@[simp] theorem idle_pending (s : State) : (idle s).pending = s.pending := rfl
@[simp] theorem idle_response (s : State) : (idle s).response = none := rfl
@[simp] theorem resetInput_cfg (s : State) : (resetInput s).cfg = s.cfg := rfl
@[simp] theorem resetInput_crc (s : State) : (resetInput s).crc = 0xFFFF := rfl
@[simp] theorem resetInput_rxb (s : State) : (resetInput s).rxb = [] := rfl
@[simp] theorem resetInput_pending (s : State) : (resetInput s).pending = s.pending := rfl
@[simp] theorem resetInput_response (s : State) : (resetInput s).response = none := rfl
@[simp] theorem presentWord_cfg (s : State) (nbits w : Nat) : (presentWord s nbits w).cfg = s.cfg := rfl
@[simp] theorem presentWord_crc (s : State) (nbits w : Nat) : (presentWord s nbits w).crc = s.crc := rfl
@[simp] theorem presentWord_rxb (s : State) (nbits w : Nat) : (presentWord s nbits w).rxb = s.rxb := rfl
@[simp] theorem presentWord_pending (s : State) (nbits w : Nat) : (presentWord s nbits w).pending = tableInput nbits w :: s.pending := rfl
@[simp] theorem presentWord_response (s : State) (nbits w : Nat) : (presentWord s nbits w).response = s.response := rfl
@[simp] theorem boot_cfg (cfg : Cfg) : (State.boot cfg).cfg = cfg := rfl
@[simp] theorem boot_crc (cfg : Cfg) : (State.boot cfg).crc = 0xFFFF := rfl
@[simp] theorem boot_rxb (cfg : Cfg) : (State.boot cfg).rxb = [] := rfl
@[simp] theorem boot_pending (cfg : Cfg) : (State.boot cfg).pending = [] := rfl
@[simp] theorem boot_response (cfg : Cfg) : (State.boot cfg).response = none := rfl
@[simp] theorem reset_cfg  : (State.reset).cfg = Cfg.unbound := rfl
@[simp] theorem reset_crc  : (State.reset).crc = 0xFFFF := rfl
@[simp] theorem reset_rxb  : (State.reset).rxb = [] := rfl
@[simp] theorem reset_pending  : (State.reset).pending = [] := rfl
@[simp] theorem reset_response  : (State.reset).response = none := rfl

/-- Taking the next item of the host changes `pending` alone. -/
theorem fetch_cons (s : State) (item : Input) (rest : List Input) (h : s.pending = item :: rest) :
    fetch s = some (decodeInput item, { s with pending := rest }) := by
  simp [fetch, h]

/-- With nothing pending there is nothing to fetch. -/
theorem fetch_nil (s : State) (h : s.pending = []) : fetch s = none := by
  simp [fetch, h]

end Sys2Proof.Laws
end

