-- ==== Sys2Proof/Laws/Step.lean ====
section
/-! SUPPORT. What a step can do, once; what an instruction can do, once. -/

namespace Sys2Proof.Laws

open Machine

/-- The item a step takes decodes to an instruction: the step runs it. -/
theorem step_instr {s : State} {item : Input} {rest : List Input} {i : Instr} (h : s.pending = item :: rest)
    (hd : decodeInput item = .instr i) : step s = exec i { s with pending := rest } := by
  simp [step, fetch_cons s item rest h, hd]

/-- Everything a step can answer with a next state: an idle step, an instruction run, an illegal command code, a
reset. -/
theorem step_next_cases {s t : State} (h : step s = .next t) :
    (s.pending = [] ∧ t = idle s) ∨
    ∃ item rest, s.pending = item :: rest ∧
      ((∃ i, decodeInput item = .instr i ∧ exec i { s with pending := rest } = .next t) ∨
        (∃ op, decodeInput item = .illegalOp op ∧ t = answerIllegalOp { s with pending := rest } op) ∨
        (decodeInput item = .reset ∧ t = resetInput { s with pending := rest })) := by
  cases hp : s.pending with
  | nil =>
    rw [step, fetch_nil s hp] at h
    cases h
    exact .inl ⟨rfl, rfl⟩
  | cons item rest =>
    refine .inr ⟨item, rest, rfl, ?_⟩
    rw [step, fetch_cons s item rest hp] at h
    cases hd : decodeInput item with
    | instr i => rw [hd] at h; exact .inl ⟨i, rfl, h⟩
    | illegalOp op => rw [hd] at h; cases h; exact .inr (.inl ⟨op, rfl, rfl⟩)
    | reset => rw [hd] at h; cases h; exact .inr (.inr ⟨rfl, rfl⟩)
    | bad r => rw [hd] at h; cases h

/-- Everything an instruction can do: it answers, and beside the response only CRC.INIT, CRC.UPD, RX.BYTE and
RX.FLUSH write a field, each its own. -/
theorem exec_next_cases {i : Instr} {s t : State} (h : exec i s = .next t) :
    ∃ r, (i = .crcInit ∧ t = respond { s with crc := crcSeed } r) ∨
      (∃ b, i = .crcUpd b ∧ t = respond { s with crc := crcStep params s.crc b } r) ∨
      (∃ b, i = .rxByte b ∧ t = respond { s with rxb := (splitterPush params s.cfg s.rxb b).1 } r) ∨
      (i = .rxFlush ∧ t = respond { s with rxb := [] } r) ∨
      t = respond s r := by
  cases i <;> cases h
  case crcInit => exact ⟨_, .inl ⟨rfl, rfl⟩⟩
  case crcUpd b => exact ⟨_, .inr (.inl ⟨b, rfl, rfl⟩)⟩
  case rxByte b => exact ⟨_, .inr (.inr (.inl ⟨b, rfl, rfl⟩))⟩
  case rxFlush => exact ⟨_, .inr (.inr (.inr (.inl ⟨rfl, rfl⟩)))⟩
  all_goals exact ⟨_, .inr (.inr (.inr (.inr rfl)))⟩

end Sys2Proof.Laws
end

