-- ==== Sys2Proof/Tests/Rounding.lean ====
section
/-! SUPPORT. P-ROUND2 is not an empty hypothesis: exact widening of a binary32 pattern has it. This is no value of
ROUND2, which stays open (log 9). -/

namespace Sys2Proof.Tests

open Machine

/-- The binary64 pattern of a normal binary32 number's value; 0 for the patterns with a zero exponent field. -/
def widen (p : BitVec 32) : BitVec 64 :=
  if p.toNat / 2 ^ 23 % 2 ^ 8 = 0 then 0
  else BitVec.ofNat 64
    ((p.toNat / 2 ^ 31 % 2 * 2 ^ 11 + (p.toNat / 2 ^ 23 % 2 ^ 8 + 896)) * 2 ^ 52 + p.toNat % 2 ^ 23 * 2 ^ 29)

theorem subnormal_not_two_decimals (neg : Bool) (f : Nat) (h0 : f ≠ 0) (h : f < 2 ^ 23) :
    ¬ twoDecimals ((if neg then -1 else 1) * (f : ℚ) * (2 : ℚ) ^ (-149 : Int)) := by
  rintro ⟨z, hz, -⟩
  obtain ⟨c, hc⟩ : ∃ c : ℚ, (2 : ℚ) ^ (-149 : Int) = c := ⟨_, rfl⟩
  obtain ⟨m, hm, hb⟩ : ∃ m : Int, c * (m : ℚ) = 1 ∧ 2 ^ 31 ≤ m := by
    refine ⟨2 ^ 149, ?_, pow_le_pow_right₀ (by norm_num) (by norm_num)⟩
    rw [← hc, zpow_neg, Int.cast_pow]
    exact inv_mul_cancel₀ (by positivity)
  rw [hc] at hz
  have hi : 100 * ((if neg then -1 else 1) * (f : Int)) = z * m := by
    have hq : ((100 * ((if neg then -1 else 1) * (f : Int)) : Int) : ℚ) = ((z * m : Int) : ℚ) := by
      push_cast
      linear_combination (m : ℚ) * hz - 100 * (if neg then -1 else 1) * (f : ℚ) * hm
    exact_mod_cast hq
  have hz0 : z ≠ 0 := by
    rintro rfl
    cases neg <;> simp at hi <;> omega
  have habs : |z * m| < 2 ^ 31 := by
    rw [← hi]; cases neg <;> simp [abs_mul] <;> norm_num at h <;> omega
  rw [abs_mul] at habs
  have h1 : 1 ≤ |z| := Int.one_le_abs hz0
  have h2 : m ≤ |m| := le_abs_self m
  nlinarith [abs_nonneg m]

theorem pround2_widen : PRound2 widen := by
  intro p x hx hd
  have hf : p.toNat % 2 ^ 23 < 2 ^ 23 := Nat.mod_lt _ (by norm_num)
  have he : p.toNat / 2 ^ 23 % 2 ^ 8 < 2 ^ 8 := Nat.mod_lt _ (by norm_num)
  have hs : p.toNat / 2 ^ 31 % 2 < 2 := Nat.mod_lt _ (by norm_num)
  unfold f32Value floatValue at hx
  unfold f64Value floatValue widen
  generalize p.toNat % 2 ^ 23 = f at *
  generalize p.toNat / 2 ^ 23 % 2 ^ 8 = e at *
  have h31 : (8 + 23 : Nat) = 31 := rfl
  rw [h31] at hx
  generalize p.toNat / 2 ^ 31 % 2 = sg at *
  by_cases e0 : e = 0
  · subst e0
    by_cases f0 : f = 0
    · subst f0
      simp [NumValue.rat?] at hx
      subst hx
      simp [NumValue.rat?]
    · exfalso
      simp only [f0, if_true, if_false, NumValue.rat?, Option.some.injEq] at hx
      refine subnormal_not_two_decimals (sg == 1) f f0 hf ?_
      have : (1 - (127 : Nat) - (23 : Nat) : Int) = -149 := by norm_num
      rw [this] at hx
      rw [hx]; exact hd
  · by_cases e255 : e = 2 ^ 8 - 1
    · exfalso
      simp only [e255] at hx
      by_cases f0 : f = 0 <;> simp [f0, NumValue.rat?] at hx
    · simp only [e0, e255, if_false, NumValue.rat?, Option.some.injEq] at hx
      simp only [e0, if_false]
      have hlt : (sg * 2 ^ 11 + (e + 896)) * 2 ^ 52 + f * 2 ^ 29 < 2 ^ 64 := by norm_num at *; omega
      rw [BitVec.toNat_ofNat, Nat.mod_eq_of_lt hlt]
      have a1 : ((sg * 2 ^ 11 + (e + 896)) * 2 ^ 52 + f * 2 ^ 29) / 2 ^ (11 + 52) % 2 = sg := by norm_num at *; omega
      have a2 : ((sg * 2 ^ 11 + (e + 896)) * 2 ^ 52 + f * 2 ^ 29) / 2 ^ 52 % 2 ^ 11 = e + 896 := by
        norm_num at *; omega
      have a3 : ((sg * 2 ^ 11 + (e + 896)) * 2 ^ 52 + f * 2 ^ 29) % 2 ^ 52 = f * 2 ^ 29 := by
        rw [Nat.add_comm, Nat.add_mul_mod_self_right, Nat.mod_eq_of_lt (by clear a1 a2 hlt; norm_num at hf ⊢; omega)]
      rw [a1, a2, a3]
      have b1 : ¬ (e + 896 = 0) := by omega
      have b2 : ¬ (e + 896 = 2 ^ 11 - 1) := by norm_num at *; omega
      simp only [b1, b2, if_false, NumValue.rat?, Option.some.injEq]
      rw [← hx]
      have ee : ((e : Int) - (127 : Nat) - (23 : Nat)) = (((e + 896 : Nat) : Int) - (1023 : Nat) - (52 : Nat)) + 29 := by
        push_cast; ring
      rw [ee, zpow_add₀ (by norm_num)]
      push_cast
      norm_num
      split_ifs <;> ring

end Sys2Proof.Tests
end

