-- ==== Sys2Proof/Tests/Slice0.lean ====
section
/-! SUPPORT. The model's own tests. Expected values are the vectors of spec/95_test_vectors.md (their ids are
named), the encodings of 30_encoding.md, and, where neither is named, hand calculation from the rule cited. -/

namespace Sys2Proof.Tests

open Machine Safety

/-! ## Configurations of 95_test_vectors.md section 2.0 -/

/-- CFG-A. -/
def cfgA : Cfg where
  ver0 := 0xA5
  ver1 := 0x01
  ch := [(0, ⟨2, 4, 0x00⟩), (1, ⟨1, 2, 0x00⟩), (2, ⟨0, 1, 0x10⟩), (3, ⟨3, 1, 0xFF⟩), (4, ⟨2, 8, 0x00⟩),
    (5, ⟨0, 4, 0x00⟩), (6, ⟨1, 8, 0x00⟩), (7, ⟨2, 2, 0x00⟩), (8, ⟨1, 3, 0x00⟩), (15, ⟨0, 2, 0x7E⟩), (16, ⟨2, 4, 0x00⟩)]
  fsCh := []
  mode := .sp

/-- CFG-B. -/
def cfgB : Cfg where
  ver0 := 0xA5
  ver1 := 0x02
  ch := []
  fsCh := [0, 1, 2]
  mode := .fs

/-- The packet of V-ENC-1. -/
def packet1 : Buffer :=
  [0xA5, 0x01, 0x0F, 0x02, 0x00, 0x0A, 0x00, 0x00, 0x00, 0xCC, 0x41, 0x68, 0xDC, 0x0D, 0x0A]

/-- The packet F1 of section 2.5. -/
def packetF1 : Buffer :=
  [0xA5, 0x02, 0x13, 0x00, 0x00, 0xCA, 0x41, 0x00, 0x00, 0x70, 0xC0, 0xD0, 0x0F, 0x49, 0x40, 0x86, 0x01, 0x0D, 0x0A]

/-- The response of one instruction on a fresh instance. -/
def resp (cfg : Cfg) (i : Instr) : Option Response :=
  match exec i (State.boot cfg) with
  | .next t => t.response
  | .fault _ => none
  | .refused _ => none

/-- The accumulator and the splitter's bytes after one instruction. -/
def after (i : Instr) (s : State) : Option (Half × Buffer) :=
  match exec i s with
  | .next t => some (t.crc, t.rxb)
  | .fault _ => none
  | .refused _ => none

/-! ## WellFormed refuses what the encodings cannot spell -/

theorem test_wf_refuses_long_crc16 : (Instr.crc16 (List.replicate 256 0)).wellFormed = false := by decide +kernel
theorem test_wf_refuses_long_parse : (Instr.parse (List.replicate 256 0) 0).wellFormed = false := by decide +kernel
theorem test_wf_refuses_long_dec : (Instr.dec (List.replicate 256 0)).wellFormed = false := by decide +kernel
theorem test_wf_refuses_long_fsDec : (Instr.fsDec (List.replicate 256 0)).wellFormed = false := by decide +kernel
theorem test_wf_refuses_63_fields : (Instr.fsPkt 0 0 0 (List.replicate 63 0) 0).wellFormed = false := by decide +kernel
theorem test_wf_accepts_limits : (Instr.dec (List.replicate 255 0)).wellFormed = true ∧
    (Instr.fsPkt 0 0 0 (List.replicate 62 0) 0).wellFormed = true := by decide +kernel

/-! ## Decoding: every constructor from a word written out -/

theorem test_decode_crc_unit :
    decodeInput (.request [0x10]) = .instr .crcInit ∧
    decodeInput (.request [0x11, 0xA5]) = .instr (.crcUpd 0xA5) ∧
    decodeInput (.request [0x12]) = .instr .crcFin ∧
    decodeInput (.request [0x13, 0x03, 0x31, 0x32, 0x33]) = .instr (.crc16 [0x31, 0x32, 0x33]) := by decide

theorem test_decode_field_unit :
    decodeInput (.request [0x20, 0x02, 0x00]) = .instr (.getp 2 0) ∧
    decodeInput (.request [0x21, 0x02, 0xD4, 0xFE, 0x00]) = .instr (.parse [0xD4, 0xFE] 0) ∧
    decodeInput (.request [0x22, 0x01, 0x02, 0xEF, 0xBE, 0, 0, 0, 0, 0, 0]) = .instr (.genp 1 2 0xBEEF) ∧
    decodeInput (.request [0x23, 0x0D, 0x0A, 0x00, 0x00]) = .instr (.u16pk 0x0A0D) ∧
    decodeInput (.request [0x24, 0x34, 0x12]) = .instr (.u16up 0x34 0x12) := by decide

theorem test_decode_framer_and_deframer :
    decodeInput (.request [0x30, 2, 0, 0, 0, 15, 0, 0, 0, 0x00, 0x00, 0xCC, 0x41, 0, 0, 0, 0]) =
      .instr (.enc 2 15 0x41CC0000) ∧
    decodeInput (.request [0x31]) = .instr .fsEnc ∧
    decodeInput (.request [0x40, 0x02, 0x0D, 0x0A]) = .instr (.dec [0x0D, 0x0A]) ∧
    decodeInput (.request [0x41, 0x01, 0x0D]) = .instr (.fsDec [0x0D]) ∧
    decodeInput (.request [0x42, 0x0A]) = .instr (.rxByte 0x0A) ∧
    decodeInput (.request [0x43]) = .instr .rxFlush := by decide

theorem test_decode_kind_map :
    [0x00, 0x01, 0x02, 0x03, 0x14, 0x15, 0x16, 0x17, 0xF8, 0xF9, 0x0A, 0xFB, 0x5C, 0x6D, 0x4E, 0x7F].map decodeCfg1 =
      [.cfg1Int1 0, .cfg1Uint1 0, .cfg1Float1 0, .cfg1Command1 0, .cfg1Int2 1, .cfg1Uint2 1, .cfg1Float2 1,
        .cfg1Command2 1, .cfg1Int4 15, .cfg1Uint4 15, .cfg1Float4 0, .cfg1Command4 15, .cfg1Int8 5, .cfg1Uint8 6,
        .cfg1Float8 4, .cfg1Command8 7] := by decide

/-- The packets of V-ENC-5, V-ENC-2, V-ENC-1, V-ENC-6. -/
theorem test_decode_single_packets :
    decodeInput (.spFrame [0xA5, 0x01, 0x0C, 0x07, 0x00, 0x33, 0xFF, 0x5A, 0x28, 0x9C, 0x0D, 0x0A]) =
      .instr (.spPkt1 0xA5 0x01 7 3 3 0xFF 0x5A 0x9C28) ∧
    decodeInput (.spFrame [0xA5, 0x01, 0x0D, 0x34, 0x12, 0x15, 0x00, 0xEF, 0xBE, 0x07, 0xB1, 0x0D, 0x0A]) =
      .instr (.spPkt2 0xA5 0x01 0x1234 1 1 0x00 0xBEEF 0xB107) ∧
    decodeInput (.spFrame packet1) = .instr (.spPkt4 0xA5 0x01 2 0 2 0x00 0x41CC0000 0xDC68) ∧
    decodeInput (.spFrame [0xA5, 0x01, 0x13, 0x01, 0x00, 0x4E, 0x00, 0x9A, 0x99, 0x99, 0x99, 0x99, 0x99, 0xB9, 0xBF,
      0xDF, 0x3A, 0x0D, 0x0A]) = .instr (.spPkt8 0xA5 0x01 1 4 2 0x00 0xBFB999999999999A 0x3ADF) := by decide

/-- F1 of section 2.5. -/
theorem test_decode_float_sequence :
    decodeInput (.fsFrame packetF1) =
      .instr (.fsPkt 0xA5 0x02 0x13 [0x41CA0000, 0xC0700000, 0x40490FD0] 0x0186) := by decide

theorem test_decode_rejects :
    decodeInput (.request []) = .bad .emptyRequest ∧
    decodeInput (.request [0x50]) = .illegalOp 0x50 ∧
    decodeInput (.request [0x13, 0x02, 0x31]) = .bad (.truncated 0x13) ∧
    decodeInput (.request [0x20, 0x10, 0x00]) = .bad (.operandTooWide 0x20) ∧
    decodeInput (.spFrame (List.replicate 256 0)) = .bad .bufferTooLong ∧
    decodeInput (.spFrame [0x0D, 0x0A]) = .instr (.dec [0x0D, 0x0A]) ∧
    decodeInput .reset = .reset := by decide +kernel

theorem test_table_words :
    decodeTableWord 8 0x11 = some (.crcUpd 0) ∧ decodeTableWord 8 0x30 = some (.enc 0 0 0) ∧
    decodeTableWord 8 0x41 = some (.fsDec []) ∧ decodeTableWord 8 0x0E = some (.cfg1Float8 0) ∧
    decodeTableWord 96 0x0A0D000000000000000C0000 = some (.spPkt1 0 0 0 0 0 0 0 0) := by decide +kernel

theorem test_step_runs_table_word :
    (match step (State.reset.withFetchWord 8 0x11) with
      | .next t => some (t.crc, t.pending, t.response)
      | .fault _ => none
      | .refused _ => none) = some (0x0F87, [], some (.ok .done)) := by decide +kernel

/-! ## CRC unit -/

/-- V-CRC-14, its first row. -/
theorem test_crcUpd : after (.crcUpd 0x31) (State.boot cfgA) = some (0x2F8D, []) := by decide
theorem test_crcInit : after .crcInit { State.boot cfgA with crc := 0x6F91, rxb := [0x0A] } = some (0xFFFF, [0x0A]) := by
  decide
/-- V-CRC-17: CRC.FIN straight after reset. -/
theorem test_crcFin : resp cfgA .crcFin = some (.ok (.u16 0x0000)) := by decide
/-- V-CRC-6. -/
theorem test_crc16 :
    resp cfgA (.crc16 [0x31, 0x32, 0x33, 0x34, 0x35, 0x36, 0x37, 0x38, 0x39]) = some (.ok (.u16 0x906E)) := by decide

/-! ## Field unit -/

/-- V-GETP. -/
theorem test_getp : resp cfgA (.getp 4 2) = some (.ok (.kind .f32)) ∧
    resp cfgA (.getp 3 2) = some (.err .unsupportedSize 3 0) := by decide
/-- V-PARSE-1, V-PARSE-14. -/
theorem test_parse : resp cfgA (.parse [0xD4, 0xFE] 0) = some (.ok (.value .i16 0xFFFFFFFFFFFFFED4)) ∧
    resp cfgA (.parse [0x01, 0x02] 2) = some (.err .noParserForCombination 2 2) := by decide
/-- V-GENP-19, V-GENP-20. -/
theorem test_genp : resp cfgA (.genp 2 4 0xC0200000) = some (.ok (.bytes [0x00, 0x00, 0x20, 0xC0])) ∧
    resp cfgA (.genp 2 4 0xFFFFFFFFC0200000) = some (.err .valueOutOfRange 4 2) := by decide
/-- V-U16-4, V-U16-9. -/
theorem test_u16pk : resp cfgA (.u16pk 4660) = some (.ok (.bytes [0x34, 0x12])) ∧
    resp cfgA (.u16pk (-65536)) = some (.err .u16OutOfRange 0x0000 0xFFFF) := by decide
/-- V-U16-12. -/
theorem test_u16up : resp cfgA (.u16up 0x34 0x12) = some (.ok (.u16 0x1234)) := by decide

/-! ## Framer -/

/-- V-ENC-9. -/
theorem test_enc : resp cfgA (.enc 2573 15 0xFFFFFFFFFFFFFED4) = some (.ok (.bytes
    [0xA5, 0x01, 0x0D, 0x0D, 0x0A, 0xF4, 0x7E, 0xD4, 0xFE, 0x38, 0x95, 0x0D, 0x0A])) := by decide
/-- V-ENC-E2, V-ENC-E14, V-ENC-E15, V-ENC-E16: the order of the checks. -/
theorem test_enc_errors : resp cfgA (.enc 0 (-1) 0) = some (.err .unknownMsgType 0xFFFF 0xFFFF) ∧
    resp cfgA (.enc 65536 8 0) = some (.err .u16OutOfRange 0x0000 0x0001) ∧
    resp cfgA (.enc 0 16 0x0000010000000000) = some (.err .msgTypeOverflow 0x0010 0) ∧
    resp cfgA (.enc 0 7 0x0000010000000000) = some (.err .noParserForCombination 2 2) := by decide
theorem test_fsEnc : resp cfgB .fsEnc = some (.err .notImplemented 0 0) := by decide

/-! ## Deframer and splitter -/

/-- V-DEC-12: the wire's type, size and cfg2 win over the table's. -/
theorem test_dec : resp cfgA (.dec [0xA5, 0x01, 0x0D, 0x01, 0x00, 0x14, 0x33, 0xFE, 0xFF, 0x2D, 0x6A, 0x0D, 0x0A]) =
    some (.ok (.decoded (.single (spMessage 1 1 0 .i16 0x33 [0xFE, 0xFF] 0xFFFFFFFFFFFFFFFE ⟨1, 2, 0x00⟩)))) := by
  decide
/-- V-DEC-7. -/
theorem test_dec_crc :
    resp cfgA (.dec [0xA5, 0x01, 0x0F, 0x02, 0x00, 0x0A, 0x00, 0x01, 0x00, 0xCC, 0x41, 0x68, 0xDC, 0x0D, 0x0A]) =
      some (.err .invalidCRC16 0xC0D3 0xDC68) := by decide
/-- The VAL column of V-FS-1. -/
theorem test_fsDec :
    (match resp cfgB (.fsDec packetF1) with
      | some (.ok (.decoded (.sequence ms))) => ms.map (fun m => (m.mt, m.val))
      | _ => []) = [(0, 0x41CA0000), (1, 0xC0700000), (2, 0x40490FD0)] := by decide
/-- V-FS-3. -/
theorem test_fsDec_size :
    resp cfgB (.fsDec [0xA5, 0x02, 0x0F, 0x00, 0x00, 0x80, 0x3F, 0x00, 0x00, 0x00, 0x40, 0x6C, 0x43, 0x0D, 0x0A]) =
      some (.err .invalidPacketSize 0x000F 0x0013) := by decide
/-- V-RX-3, its last byte. -/
theorem test_rxByte : exec (.rxByte 0x0A) { State.boot cfgA with rxb := [0x0A, 0x0D, 0x0D] } =
    .next { State.boot cfgA with response := some (.ok (.frame (.err .packetTooSmall 4 0))) } := by rfl
/-- V-RX-6, its last byte. -/
theorem test_rxByte_overflow :
    splitterPush params cfgA (List.replicate 254 0x55 ++ [0x0D]) 0x0A = ([], .err .rxOverflow 0x00FF 0) := by
  decide +kernel
/-- V-RX-7. -/
theorem test_rxFlush : after .rxFlush { State.boot cfgA with rxb := [0xA5, 0x01, 0x0F, 0x02, 0x00] } =
    some (0xFFFF, []) := by decide

/-! ## Wire rows -/

/-- R80's table. -/
theorem test_cfg1 : resp cfgA (.cfg1Float1 4) = some (.err .noParserForCombination 1 2) ∧
    resp cfgA (.cfg1Command8 15) = some (.ok (.cfg1 15 3 8 .u64)) := by decide
/-- V-ENC-1 decoded back. -/
theorem test_spPkt4 : resp cfgA (.spPkt4 0xA5 0x01 2 0 2 0x00 0x41CC0000 0xDC68) =
    some (.ok (.decoded (.single (spMessage 2 0 2 .f32 0x00 [0x00, 0x00, 0xCC, 0x41] 0x41CC0000 ⟨2, 4, 0x00⟩)))) := by
  decide
/-- F1 decoded for another instance's version. -/
theorem test_fsPkt : resp { cfgB with ver1 := 0x01 } (.fsPkt 0xA5 0x02 0x13 [0x41CA0000, 0xC0700000, 0x40490FD0] 0x0186) =
    some (.err .invalidVersionBytes 0x02A5 0x01A5) := by decide

/-! ## Numbers -/

/-- 25.5, -2.5 and +infinity as binary32, 1.0 as binary64 (95_test_vectors.md section 2.2). -/
theorem test_float_values :
    f32Value 0x41CC0000 = .finite false 13369344 (-19) ∧ f32Value 0xC0200000 = .finite true 10485760 (-22) ∧
    f32Value 0x7F800000 = .infinity false ∧ f64Value 0x3FF0000000000000 = .finite false (2 ^ 52) (-52) := by decide

end Sys2Proof.Tests
end

