-- ==== Sys2Proof/Tests/Witnesses.lean ====
section
/-! SUPPORT. For each obligation with hypotheses, a concrete state and operands that meet them, clause by clause
and at the ends of the ranges; `witness_X` belongs to `Obligations.X`. Packets are those of
spec/95_test_vectors.md. -/

namespace Sys2Proof.Tests

open Machine Safety

/-- A state of an instance configured as CFG-A. -/
def stA : State := State.boot cfgA

/-- A state of an instance configured as CFG-B. -/
def stB : State := State.boot cfgB

/-! ## CRC unit -/

theorem witness_CrcFinComplements : stA.crc = 0xFFFF ∧ ({ stA with crc := 0x6F91 } : State).crc = 0x6F91 := by decide

theorem witness_CrcResidueIsConstant :
    ({ stA with crc := 0xF0B8 } : State).crc =
      crcRun params 0xFFFF ([0x31, 0x32] ++ leBytes 2 (crc16 params [0x31, 0x32]).toNat) := by decide +kernel

theorem witness_CrcDetectsOneFlippedBit :
    0 < packet1.length ∧ 0 < 8 ∧ packet1.length - 1 < packet1.length ∧ 7 < 8 := by decide

/-! ## Field unit -/

theorem witness_GetpSelectsKind :
    (0 : BitVec 4).toNat ∉ [1, 2, 4, 8] ∧ (15 : BitVec 4).toNat ∉ [1, 2, 4, 8] ∧
    (2 : BitVec 4) ∈ ([1, 2] : List (BitVec 4)) := by decide

theorem witness_CommandFieldsAreUnsigned : 1 ∈ [1, 2, 4, 8] ∧ 8 ∈ [1, 2, 4, 8] := by decide

theorem witness_FitsMeansFormOfAPattern : Kind.signed .u32 = false ∧ Kind.signed .f64 = false ∧
    Kind.signed .i8 = true ∧ Kind.signed .i64 = true := by decide

theorem witness_ParseExtendsThePattern :
    kindOf params ([] : Buffer).length 2 = .err .unsupportedSize 0 0 ∧ ([] : Buffer).length ∉ [1, 2, 4, 8] ∧
    kindOf params ([1, 2] : Buffer).length 2 = .err .noParserForCombination 2 2 ∧
    ([1, 2] : Buffer).length ∈ [1, 2] ∧ ([1, 2, 3] : Buffer).length ∉ [1, 2, 4, 8] ∧
    kindOf params ([1] : Buffer).length 0 = .ok .i8 ∧
    kindOf params ([1, 2, 3, 4, 5, 6, 7, 8] : Buffer).length 2 = .ok .f64 := by decide

theorem witness_GenpWritesThePattern :
    kindOf params (3 : BitVec 4).toNat 2 = .err .unsupportedSize 3 0 ∧
    kindOf params (1 : BitVec 4).toNat 0 = .ok .i8 ∧ fits .i8 128 = false ∧ fits .i8 127 = true ∧
    fits .i8 0xFFFFFFFFFFFFFF80 = true ∧ fits .i8 0xFFFFFFFFFFFFFF7F = false := by decide

theorem witness_FieldUnitRoundTrip : kindOf params 2 1 = .ok .u16 ∧ fits .u16 0xFFFF = true ∧
    kindOf params ([1, 2] : Buffer).length 1 = .ok .u16 := by decide

theorem witness_U16pkPacksTheRange :
    (0 ≤ (0 : BitVec 32).toInt ∧ (0 : BitVec 32).toInt ≤ 65535) ∧
    (0 ≤ (65535 : BitVec 32).toInt ∧ (65535 : BitVec 32).toInt ≤ 65535) ∧
    (-1 : BitVec 32).toInt < 0 ∧ 65535 < (65536 : BitVec 32).toInt := by decide

theorem witness_U16upInvertsPacking : 0 ≤ (65535 : BitVec 32).toInt ∧ (65535 : BitVec 32).toInt ≤ 65535 := by decide

theorem witness_WideReadsAreLittleEndian :
    1 + 2 ≤ ([1, 2, 3] : Buffer).length ∧ 1 < 2 ∧ (0 < 1 ∨ 1 + 2 ≤ 0) ∧ (3 < 1 ∨ 1 + 2 ≤ 3) := by decide

theorem witness_ParsedNumberIsTwosComplement :
    parse params [0xFF] 1 = .ok (.u8, 0xFF) ∧ Kind.u8 ∈ [Kind.u8, .u16, .u32, .u64] ∧
    parse params [0xFF] 0 = .ok (.i8, 0xFFFFFFFFFFFFFFFF) ∧ Kind.signed .i8 = true ∧
    parse params [0, 0, 0x80, 0x3F] 2 = .ok (.f32, 0x3F800000) ∧
    parse params [0, 0, 0, 0, 0, 0, 0xF0, 0x3F] 2 = .ok (.f64, 0x3FF0000000000000) := by decide

/-! ## Framer -/

/-- The clauses on the channel, the sequence number, the size and the msg_type (V-ENC-E1 to V-ENC-E16). -/
theorem witness_EncBuildsThePacket :
    channel cfgA (-1 : BitVec 32).toInt = none ∧ channel cfgA (9 : BitVec 32).toInt = none ∧
    channel cfgA (2 : BitVec 32).toInt = some ⟨0, 1, 0x10⟩ ∧
    (-1 : BitVec 32).toInt < 0 ∧ 65535 < (65536 : BitVec 32).toInt ∧
    (0 ≤ (65535 : BitVec 32).toInt ∧ (65535 : BitVec 32).toInt ≤ 65535) ∧
    channel cfgA (8 : BitVec 32).toInt = some ⟨1, 3, 0x00⟩ ∧ (3 : BitVec 4).toNat ∉ [1, 2, 4, 8] ∧
    channel cfgA (16 : BitVec 32).toInt = some ⟨2, 4, 0x00⟩ ∧ 15 < (16 : BitVec 32).toInt ∧
    channel cfgA (7 : BitVec 32).toInt = some ⟨2, 2, 0x00⟩ ∧ (2 : BitVec 4).toNat ∈ [1, 2] := by decide

/-- The clauses on the value; msg_type 15 is the last the packet carries. -/
theorem witness_EncBuildsThePacket_value :
    channel cfgA (15 : BitVec 32).toInt = some ⟨0, 2, 0x7E⟩ ∧ (15 : BitVec 32).toInt ≤ 15 ∧
    (2 : BitVec 4).toNat ∈ [1, 2, 4, 8] ∧ kindOf params (2 : BitVec 4).toNat 0 = .ok .i16 ∧
    fits .i16 0x8000 = false ∧ fits .i16 0x7FFF = true := by decide

theorem witness_EncThenDecGivesBack :
    encodeSp params cfgA 2 0 0x41CC0000 = .ok packet1 ∧
    answers (.enc 2 0 0x41CC0000) stA (.ok (.bytes packet1)) := ⟨by decide, by rfl⟩

theorem witness_EncPacketLengths : ∃ pkt, encodeSp params cfgA 2 0 0x41CC0000 = .ok pkt ∧ pkt.length = 15 :=
  ⟨_, by rfl, by decide⟩

/-! ## Deframer -/

/-- The packet V-ENC-1 with its version byte changed. -/
def packet1Version : Buffer :=
  [0xA6, 0x01, 0x0F, 0x02, 0x00, 0x0A, 0x00, 0x00, 0x00, 0xCC, 0x41, 0x68, 0xDC, 0x0D, 0x0A]

/-- The packet of V-DEC-7. -/
def packet1Crc : Buffer :=
  [0xA5, 0x01, 0x0F, 0x02, 0x00, 0x0A, 0x00, 0x01, 0x00, 0xCC, 0x41, 0x68, 0xDC, 0x0D, 0x0A]

theorem witness_DecHeaderChecksInOrder :
    (packet1.take 11).length ≤ 11 ∧ 11 < (packet1.take 12).length ∧
    (packet1.take 12)[2]? = some 0x0F ∧ (packet1.take 12).length ≠ (0x0F : Byte).toNat ∧
    11 < packet1Version.length ∧ packet1Version[0]? = some 0xA6 ∧ packet1Version[1]? = some 0x01 ∧
    packet1Version[2]? = some 0x0F ∧ packet1Version[packet1Version.length - 4]? = some 0x68 ∧
    packet1Version[packet1Version.length - 3]? = some 0xDC ∧ packet1Version.length = (0x0F : Byte).toNat ∧
    (0xA6 : Byte) ≠ stA.cfg.ver0 := by decide

theorem witness_DecHeaderChecksInOrder_crc :
    11 < packet1Crc.length ∧ packet1Crc[0]? = some stA.cfg.ver0 ∧ packet1Crc[1]? = some stA.cfg.ver1 ∧
    packet1Crc[2]? = some 0x0F ∧ packet1Crc.length = (0x0F : Byte).toNat ∧
    packet1Crc[packet1Crc.length - 4]? = some 0x68 ∧ packet1Crc[packet1Crc.length - 3]? = some 0xDC ∧
    crc16 params (packet1Crc.take (packet1Crc.length - 4)) ≠ (0xDC : Byte) ++ (0x68 : Byte) := by decide +kernel

/-- A frame that passes the header checks. -/
def headerOk (cfg : Cfg) (buf : Buffer) : Prop :=
  lengthByteOk buf ∧ versionOk cfg buf ∧ crcOk params buf

/-- V-ENC-1's body with this cfg1 byte and its own CRC. -/
def withCfg1 (c : Byte) : Buffer :=
  withTrailer [0xA5, 0x01, 0x0F, 0x02, 0x00, c, 0x00, 0x00, 0x00, 0xCC, 0x41]
    (crc16 params [0xA5, 0x01, 0x0F, 0x02, 0x00, c, 0x00, 0x00, 0x00, 0xCC, 0x41])

/-- A 16-byte frame (no single packet has this length) with a right CRC. -/
def frame16 : Buffer :=
  withTrailer [0xA5, 0x01, 0x10, 0x02, 0x00, 0x0A, 0x00, 0, 0, 0, 0, 0]
    (crc16 params [0xA5, 0x01, 0x10, 0x02, 0x00, 0x0A, 0x00, 0, 0, 0, 0, 0])

/-- A 13-byte frame of a FLOAT of 2 bytes with a right CRC, for the configured msg_type 7. -/
def frameFloat2 : Buffer :=
  withTrailer [0xA5, 0x01, 0x0D, 0x02, 0x00, 0x76, 0x00, 0, 0]
    (crc16 params [0xA5, 0x01, 0x0D, 0x02, 0x00, 0x76, 0x00, 0, 0])

theorem headerOk_withCfg1_06 : headerOk cfgA (withCfg1 0x06) :=
  ⟨⟨_, rfl, by decide⟩, ⟨rfl, rfl⟩, _, _, rfl, rfl, by decide +kernel⟩

theorem headerOk_withCfg1_9A : headerOk cfgA (withCfg1 0x9A) :=
  ⟨⟨_, rfl, by decide⟩, ⟨rfl, rfl⟩, _, _, rfl, rfl, by decide +kernel⟩

theorem headerOk_frame16 : headerOk cfgA frame16 :=
  ⟨⟨_, rfl, by decide⟩, ⟨rfl, rfl⟩, _, _, rfl, rfl, by decide +kernel⟩

theorem headerOk_frameFloat2 : headerOk cfgA frameFloat2 :=
  ⟨⟨_, rfl, by decide⟩, ⟨rfl, rfl⟩, _, _, rfl, rfl, by decide +kernel⟩

theorem headerOk_packet1 : headerOk cfgA packet1 :=
  ⟨⟨_, rfl, by decide⟩, ⟨rfl, rfl⟩, _, _, rfl, rfl, by decide +kernel⟩

/-- The size field against the length; a length of no single packet. -/
theorem witness_DecCfg1ChecksInOrder_size :
    (11 < (withCfg1 0x06).length ∧ headerOk stA.cfg (withCfg1 0x06) ∧ (withCfg1 0x06)[5]? = some 0x06 ∧
      1 <<< ((0x06 : Byte).extractLsb' 2 2).toNat ≠ (withCfg1 0x06).length - 11) ∧
    11 < frame16.length ∧ headerOk stA.cfg frame16 ∧ frame16[5]? = some 0x0A ∧
      frame16.length ∉ [12, 13, 15, 19] :=
  ⟨⟨by decide +kernel, headerOk_withCfg1_06, rfl, by decide +kernel⟩, by decide +kernel, headerOk_frame16, rfl,
    by decide +kernel⟩

/-- A msg_type of no channel; FLOAT of 2 bytes. -/
theorem witness_DecCfg1ChecksInOrder_fields :
    (headerOk stA.cfg (withCfg1 0x9A) ∧ (withCfg1 0x9A)[5]? = some 0x9A ∧
      1 <<< ((0x9A : Byte).extractLsb' 2 2).toNat = (withCfg1 0x9A).length - 11 ∧
      channel stA.cfg ((0x9A : Byte).extractLsb' 4 4).toNat = none) ∧
    headerOk stA.cfg frameFloat2 ∧ frameFloat2[5]? = some 0x76 ∧
      1 <<< ((0x76 : Byte).extractLsb' 2 2).toNat = frameFloat2.length - 11 ∧
      (channel stA.cfg ((0x76 : Byte).extractLsb' 4 4).toNat).isSome ∧ (0x76 : Byte).extractLsb' 0 2 = 2 ∧
      frameFloat2.length - 11 ∈ [1, 2] :=
  ⟨⟨headerOk_withCfg1_9A, rfl, by decide +kernel, by decide +kernel⟩, headerOk_frameFloat2, rfl, by decide +kernel,
    by decide +kernel, by decide +kernel, by decide +kernel⟩

theorem witness_DecReportsTheWireFields :
    11 < packet1.length ∧ headerOk stA.cfg packet1 ∧ packet1[3]? = some 0x02 ∧ packet1[4]? = some 0x00 ∧
    packet1[5]? = some 0x0A ∧ packet1[6]? = some 0x00 ∧
    1 <<< ((0x0A : Byte).extractLsb' 2 2).toNat = packet1.length - 11 ∧
    channel stA.cfg ((0x0A : Byte).extractLsb' 4 4).toNat = some ⟨2, 4, 0x00⟩ ∧
    kindOf params (packet1.length - 11) ((0x0A : Byte).extractLsb' 0 2) = .ok .f32 :=
  ⟨by decide, headerOk_packet1, rfl, rfl, rfl, rfl, by decide, by decide, by decide⟩

theorem witness_DecodersIgnoreTheTerminator : 2 ≤ ([0x0D, 0x0A] : Buffer).length ∧ 2 ≤ packet1.length := by decide

/-- The message of V-ENC-1's packet. -/
def message1 : Msg := spMessage 2 0 2 .f32 0x00 [0x00, 0x00, 0xCC, 0x41] 0x41CC0000 ⟨2, 4, 0x00⟩

theorem decodeSp_packet1 : decodeSp params cfgA packet1 = .ok message1 := by decide +kernel

theorem decodeFs_packetF1 : decodeFs params cfgB packetF1 = .ok (fsMessages params packetF1 3 [0, 1, 2]) := by rfl

theorem witness_DecodersClassifyBitFlips :
    decodeSp params cfgA packet1 = .ok message1 ∧
    decodeFs params cfgB packetF1 = .ok (fsMessages params packetF1 3 [0, 1, 2]) ∧
    (1 < packet1.length ∧ 3 ≤ 12 ∧ 12 < packet1.length - 2 ∧ packet1.length - 2 ≤ 14 ∧ 14 < packet1.length) ∧
    (1 < packetF1.length ∧ 3 ≤ 16 ∧ 16 < packetF1.length - 2 ∧ packetF1.length - 2 ≤ 18 ∧ 18 < packetF1.length) :=
  ⟨decodeSp_packet1, decodeFs_packetF1, by decide, by decide⟩

/-- A float-sequence frame of the right length, `F1` with one byte changed. -/
def packetF1With (i : Nat) (b : Byte) : Buffer := packetF1.set i b

theorem witness_FsDecChecksInOrder :
    (packetF1.take 18).length ≠ 7 + 4 * Cfg.fsK stB.cfg ∧ packetF1.length = 7 + 4 * Cfg.fsK stB.cfg ∧
    ((packetF1With 2 0x14).length = 7 + 4 * Cfg.fsK stB.cfg ∧ (packetF1With 2 0x14)[2]? = some 0x14 ∧
      (packetF1With 2 0x14).length ≠ (0x14 : Byte).toNat) ∧
    ((packetF1With 1 0x01).length = (0x13 : Byte).toNat ∧ (packetF1With 1 0x01)[1]? = some 0x01 ∧
      (0x01 : Byte) ≠ stB.cfg.ver1) ∧
    ((packetF1With 3 0x01)[0]? = some stB.cfg.ver0 ∧ (packetF1With 3 0x01)[1]? = some stB.cfg.ver1 ∧
      (packetF1With 3 0x01)[2]? = some 0x13 ∧ (packetF1With 3 0x01)[15]? = some 0x86 ∧
      (packetF1With 3 0x01)[16]? = some 0x01 ∧
      crc16 params ((packetF1With 3 0x01).take 15) ≠ (0x01 : Byte) ++ (0x86 : Byte)) := by decide +kernel

theorem headerOk_packetF1 : headerOk cfgB packetF1 :=
  ⟨⟨_, rfl, by decide⟩, ⟨rfl, rfl⟩, _, _, rfl, rfl, by decide +kernel⟩

theorem witness_FsDecReportsEveryField :
    packetF1.length = 7 + 4 * Cfg.fsK stB.cfg ∧ headerOk stB.cfg packetF1 ∧ stB.cfg.fsCh[2]? = some 2 :=
  ⟨by decide, headerOk_packetF1, rfl⟩

theorem witness_TwoDecimalFieldsSurviveRounding :
    PRound2 widen ∧
    ∃ ms m, decodeFs { params with round2 := widen } cfgB packetF1 = .ok ms ∧ m ∈ ms ∧
      (num m.kind m.val).rat? = some (25.25 : ℚ) ∧ twoDecimals 25.25 := by
  refine ⟨pround2_widen, _, fsMessage { params with round2 := widen } packetF1 3 0, by rfl, List.mem_cons_self, ?_,
    2525, by norm_num, by norm_num⟩
  have h : num .f32 (fsMessage { params with round2 := widen } packetF1 3 0).val = .finite false 13238272 (-19) := by
    decide +kernel
  show (num .f32 _).rat? = _
  rw [h]
  norm_num [NumValue.rat?]

/-! ## Splitter -/

/-- A splitter one byte before a frame of this mode is complete. -/
def almost (mode : Mode) : State := { State.boot { cfgA with mode := mode } with rxb := [0x55, 0x0D] }

theorem witness_RxByteCutsAtTheTerminator :
    ({ stA with rxb := List.replicate 255 0x55 } : State).rxb.length = 255 ∧
    ((almost .sp).rxb.length ≠ 255 ∧ (∃ init, (almost .sp).rxb ++ [0x0A] = init ++ [0x0D, 0x0A]) ∧
      (almost .sp).cfg.mode = .sp) ∧
    ((almost .fs).rxb.length ≠ 255 ∧ (∃ init, (almost .fs).rxb ++ [0x0A] = init ++ [0x0D, 0x0A]) ∧
      (almost .fs).cfg.mode = .fs) ∧
    stA.rxb.length ≠ 255 ∧ ¬ (∃ init, stA.rxb ++ [0x0A] = init ++ [0x0D, 0x0A]) := by
  refine ⟨by decide +kernel, ⟨by decide, ⟨[0x55], rfl⟩, rfl⟩, ⟨by decide, ⟨[0x55], rfl⟩, rfl⟩, by decide, ?_⟩
  rintro ⟨init, h⟩
  have := congrArg List.length h
  simp [stA, State.boot] at this

theorem witness_SplitterDeliversWholeFrames :
    stA.rxb = [] ∧ ([0x0D] : Buffer) ≠ [] ∧ hasTerminator [0x0D] = false ∧
    (List.replicate 255 0x0A : Buffer).length ≤ 255 ∧ hasTerminator (List.replicate 255 0x0A) = false ∧
    (List.replicate 253 0x0D : Buffer).length ≤ 253 ∧ hasTerminator (List.replicate 253 0x0D ++ [0x0D]) = false ∧
    hasTerminator (packet1.take 13 ++ [0x0D]) = false := by decide +kernel

theorem witness_CutPacketIsRejected :
    decodeSp params cfgA packet1 = .ok message1 ∧ packet1.take 11 <+: packet1 ∧ packet1.take 11 ≠ packet1 ∧
    (packet1.take 11).length ≤ 11 ∧ packet1.take 12 <+: packet1 ∧ packet1.take 12 ≠ packet1 ∧
    11 < (packet1.take 12).length ∧
    decodeFs params cfgB packetF1 = .ok (fsMessages params packetF1 3 [0, 1, 2]) ∧
    packetF1.take 18 <+: packetF1 ∧ packetF1.take 18 ≠ packetF1 :=
  ⟨decodeSp_packet1, List.take_prefix _ _, by decide, by decide, List.take_prefix _ _, by decide, by decide,
    decodeFs_packetF1, List.take_prefix _ _, by decide⟩

/-! ## Wire rows -/

theorem witness_SinglePacketRowsDecode :
    channel stA.cfg (0 : BitVec 4).toNat = some ⟨2, 4, 0x00⟩ ∧
    kindOf params 1 3 = .ok .u8 ∧ kindOf params 2 1 = .ok .u16 ∧ kindOf params 4 2 = .ok .f32 ∧
    kindOf params 8 0 = .ok .i64 ∧
    (0xDC68 : Half) = crc16 params ([stA.cfg.ver0, stA.cfg.ver1, 15] ++ leBytes 2 (2 : Half).toNat ++
      [((0 : BitVec 4) ++ 2#2 ++ (2 : BitVec 2) : BitVec 8), 0x00] ++ leBytes 4 (0x41CC0000 : BitVec 32).toNat) := by
  decide +kernel

theorem witness_FloatSequenceRowDecodes :
    ([0x41CA0000, 0xC0700000, 0x40490FD0] : List (BitVec 32)).length = Cfg.fsK stB.cfg ∧
    (0x13 : Byte).toNat = 7 + 4 * ([0x41CA0000, 0xC0700000, 0x40490FD0] : List (BitVec 32)).length ∧
    (0x0186 : Half) = crc16 params ([stB.cfg.ver0, stB.cfg.ver1, 0x13] ++
      ([0x41CA0000, 0xC0700000, 0x40490FD0] : List (BitVec 32)).flatMap (fun f => leBytes 4 f.toNat)) := by
  decide +kernel

/-! ## The whole machine -/

/-- A state with one item pending. -/
def asked (item : Input) : State := { stA with pending := [item] }

theorem witness_ErrorChangesNoState :
    step (asked (.request [0x31])) = .next { stA with response := some (.err .notImplemented 0 0) } ∧
    step { asked (.request [0x42, 0x0A]) with rxb := List.replicate 255 0x55 } =
      .next { stA with response := some (.err .rxOverflow 255 0) } := by
  refine ⟨by rfl, ?_⟩
  have h : splitterPush params cfgA (List.replicate 255 0x55) 0x0A = ([], .err .rxOverflow 255 0) := by decide +kernel
  show Host.Outcome.next (respond { stA with rxb := (splitterPush params cfgA (List.replicate 255 0x55) 0x0A).1 }
    (splitterPush params cfgA (List.replicate 255 0x55) 0x0A).2) = _
  rw [h]
  rfl

theorem witness_ConfigurationIsImmutable : step (asked .reset) = .next stA := by rfl

theorem witness_AccumulatorReadersAndWriters :
    exec .crcInit { stA with crc := 0 } = .next { stA with response := some (.ok .done) } ∧
    exec (.crcUpd 0x31) stA = .next { stA with crc := 0x2F8D, response := some (.ok .done) } ∧
    (∀ b, Instr.fsEnc ≠ .crcUpd b) ∧ Instr.fsEnc ≠ .crcFin ∧
    exec .fsEnc stA = .next { stA with response := some (.err .notImplemented 0 0) } ∧
    exec .fsEnc { stA with crc := 7 } = .next { stA with crc := 7, response := some (.err .notImplemented 0 0) } :=
  ⟨by rfl, by rfl, (by intro b h; cases h), by decide, by rfl, by rfl⟩

theorem witness_PureOperationsReadConfigurationOnly :
    isPure (.enc 15 2 0xFF) = true ∧ stA.cfg = ({ stA with crc := 0, rxb := [0x0D] } : State).cfg := by decide

theorem witness_SplitterWriters :
    exec .rxFlush (almost .sp) = .next { almost .sp with rxb := [], response := some (.ok .done) } ∧
    ([] : Buffer) ≠ (almost .sp).rxb := ⟨by rfl, by decide⟩

theorem witness_IllegalOpIsAnswered :
    (0x44 : Byte).toNat ∉ [0x10, 0x11, 0x12, 0x13, 0x20, 0x21, 0x22, 0x23, 0x24, 0x30, 0x31, 0x40, 0x41, 0x42, 0x43] ∧
    (asked (.request [0x44, 0x01])).pending = .request (0x44 :: [0x01]) :: [] := by decide

theorem witness_StepRunsTheDecodedInstruction :
    (asked (.request [0x11, 0x31])).pending = .request [0x11, 0x31] :: [] ∧
    decodeInput (.request [0x11, 0x31]) = .instr (.crcUpd 0x31) ∧ stA.pending = [] := by decide

theorem witness_ResetLeavesTheSpecValues : (asked .reset).pending = .reset :: [] := by decide

theorem witness_InvariantIsKept :
    inv (asked (.request [0x43])) = true ∧
    step (asked (.request [0x43])) = .next { stA with response := some (.ok .done) } := ⟨by decide, by rfl⟩

theorem witness_InvariantHoldsAfterReset : cfgLegal cfgA = true ∧ cfgLegal cfgB = true := by decide

theorem witness_OnlyMalformedItemsStop :
    step (asked (.request [0x11])) = .refused (.malformed (.truncated 0x11)) ∧
    (Instr.dec packet1).wellFormed = true ∧
    (asked (encode (.dec packet1))).pending = encode (.dec packet1) :: [] := ⟨by rfl, by decide, by rfl⟩

theorem witness_DecodeInvertsEncode : (Instr.enc 1 2 3).wellFormed = true ∧ (Instr.parse packet1 2).wellFormed = true ∧
    (Instr.fsPkt 0 0 0 [1, 2] 0).wellFormed = true := by decide

theorem witness_EncodeInvertsDecodeOnTheWire :
    decodeInput (.spFrame packet1) = .instr (.spPkt4 0xA5 0x01 2 0 2 0x00 0x41CC0000 0xDC68) ∧
    decodeInput (.spFrame [0x0D, 0x0A]) = .instr (.dec [0x0D, 0x0A]) ∧
    decodeInput (.fsFrame packetF1) =
      .instr (.fsPkt 0xA5 0x02 0x13 [0x41CA0000, 0xC0700000, 0x40490FD0] 0x0186) := by decide

end Sys2Proof.Tests
end

section
/-! The CRC accumulator (10_state.md R30): which instructions write it, and which read it. -/

namespace Sys2Proof.Proofs

open Machine Laws

/-- CRC.INIT overwrites the accumulator with the seed whatever it held. -/
theorem exec_crcInit_crc {s t : State} (h : exec .crcInit s = .next t) : t.crc = 0xFFFF := by
  cases h
  rfl

/-- The writers of the accumulator. -/
theorem exec_crc_writers {i : Instr} {s t : State} (h : exec i s = .next t) (hcrc : t.crc ≠ s.crc) :
    i = .crcInit ∨ ∃ b, i = .crcUpd b := by
  obtain ⟨r, ⟨hi, -⟩ | ⟨b, hi, -⟩ | ⟨b, -, rfl⟩ | ⟨-, rfl⟩ | rfl⟩ := exec_next_cases h
  · exact .inl hi
  · exact .inr ⟨b, hi⟩
  all_goals exact absurd rfl hcrc

/-- CRC.INIT does not read the accumulator: the state it leaves is the same for every value of it. -/
theorem exec_crcInit_ignores_crc (s : State) (c : Half) : exec .crcInit { s with crc := c } = exec .crcInit s := rfl

/-- An instruction that neither writes nor reads the accumulator commutes with setting it. Its response may
depend on the configuration, the splitter and the operands, which the two runs share. -/
theorem exec_set_crc {i : Instr} {s t : State} (c : Half) (hinit : i ≠ .crcInit) (hupd : ∀ b, i ≠ .crcUpd b)
    (hfin : i ≠ .crcFin) (h : exec i s = .next t) : exec i { s with crc := c } = .next { t with crc := c } := by
  cases i
  case crcInit => exact absurd rfl hinit
  case crcUpd b => exact absurd rfl (hupd b)
  case crcFin => exact absurd rfl hfin
  all_goals
    cases h
    rfl

/-- Two runs that differ in the accumulator alone agree on everything else, unless the instruction reads it;
the accumulator keeps its difference or, after CRC.INIT, loses it. -/
theorem exec_crc_noninterference {i : Instr} {s t u : State} {c : Half} (hupd : ∀ b, i ≠ .crcUpd b)
    (hfin : i ≠ .crcFin) (ht : exec i s = .next t) (hu : exec i { s with crc := c } = .next u) :
    u = { t with crc := c } ∨ u = t := by
  by_cases hinit : i = .crcInit
  · subst hinit
    rw [exec_crcInit_ignores_crc, ht] at hu
    cases hu
    exact .inr rfl
  · rw [exec_set_crc c hinit hupd hfin ht] at hu
    cases hu
    exact .inl rfl

/-- Settles O44: the writers and the seed from what an instruction can do, the readers by the comparison of two
runs that differ in the accumulator alone. -/
theorem accumulatorReadersAndWriters : Obligations.AccumulatorReadersAndWriters := by
  refine ⟨fun _ _ _ => exec_crc_writers, fun _ _ => exec_crcInit_crc, ?_, reset_crc⟩
  intro i s t u c hupd hfin ht hu
  obtain rfl | rfl := exec_crc_noninterference hupd hfin ht hu
  · exact ⟨rfl, rfl, rfl, rfl, .inl rfl⟩
  · exact ⟨rfl, rfl, rfl, rfl, .inr rfl⟩

end Sys2Proof.Proofs
end

section
/-! The cfg1 byte (30_encoding.md R74): its layouts as shifts. -/

namespace Sys2Proof.Proofs

open Machine Laws

/-- `CFG1_LAYOUT = LSB0`: the msg_type stands highest. -/
theorem cfg1Pack_lsb0 (m : BitVec 4) (s d : BitVec 2) :
    cfg1Pack .lsb0 m s d = (m.setWidth 8 <<< 4) ||| (s.setWidth 8 <<< 2) ||| d.setWidth 8 :=
  BitVec.setWidth_append_append_eq_shiftLeft_setWidth_or

/-- `CFG1_LAYOUT = MSB0`: the data type code stands highest. -/
theorem cfg1Pack_msb0 (m : BitVec 4) (s d : BitVec 2) :
    cfg1Pack .msb0 m s d = (d.setWidth 8 <<< 6) ||| (s.setWidth 8 <<< 4) ||| m.setWidth 8 :=
  BitVec.setWidth_append_append_eq_shiftLeft_setWidth_or

/-- The layout this instance takes (30_encoding.md R74, 92_eei_decisions.md D2). -/
@[simp] theorem params_layout : params.layout = .lsb0 := rfl

/-- Settles O37: the fields read back by `cfg1_unpack`, and each formula is the append of its layout's fields
written with shifts. -/
theorem cfg1FieldsPackAndUnpack : Obligations.Cfg1FieldsPackAndUnpack := by
  intro m s d
  refine ⟨fun layout => cfg1_unpack layout m s d, ?_, cfg1Pack_msb0 m s d⟩
  rw [params_layout, cfg1Pack_lsb0]

end Sys2Proof.Proofs
end

section
/-! The CRC table (40_crc.md R101): the loop over the reflected constant, and the printed table. -/

namespace Sys2Proof.Proofs

open Machine Laws

/-- The constant of the loop is the generator polynomial 1021H read backwards. -/
theorem crcPolyR_eq_reverse : (0x1021 : Half).reverse = crcPolyR := by decide

/-- Zero turns of the table loop. -/
@[simp] theorem crcShifts_zero (c : Half) : crcShifts 0 c = c := rfl

/-- One more turn of the table loop, taken first. -/
@[simp] theorem crcShifts_succ (n : Nat) (c : Half) : crcShifts (n + 1) c = crcShifts n (crcShift c) := rfl

/-- The operations use the table of the loop: eight turns from the zero-extended index. -/
theorem params_table (i : Byte) : params.table i = crcShifts 8 (i.setWidth 16) := rfl

/-- The one evaluation of the whole table: the printed entries, in order, are those of the loop. -/
theorem crcTablePrinted_eq_ofFn :
    crcTablePrinted = List.ofFn fun i : Fin 256 => params.table (BitVec.ofFin i) := by decide +kernel

theorem crcTablePrinted_length : crcTablePrinted.length = 256 := by
  rw [crcTablePrinted_eq_ofFn, List.length_ofFn]

/-- A byte is a position of the printed table, and its entry there is the table's. -/
theorem crcTablePrinted_getElem? (i : Byte) : crcTablePrinted[i.toNat]? = some (params.table i) := by
  rw [crcTablePrinted_eq_ofFn, List.getElem?_ofFn, dif_pos i.isLt]
  rfl

/-- Settles O1: the loop unrolled, and the printed table read at each index. -/
theorem crcTableIsPrintedTable : Obligations.CrcTableIsPrintedTable := by
  refine ⟨crcPolyR_eq_reverse, fun _ => rfl, fun i => ?_, crcTablePrinted_length, crcTablePrinted_getElem?⟩
  simp only [params_table, crcShifts_succ, crcShifts_zero]

end Sys2Proof.Proofs
end

section
/-! The CRC operations (40_crc.md R102 to R106): what each answers, written as the spec writes it. -/

namespace Sys2Proof.Proofs

open Machine Laws Safety

/-- `crc_step` indexes the table by the low byte of `c ^ b` (40_crc.md R102). -/
theorem crcStep_eq (c : Half) (b : Byte) :
    crcStep params c b = (c >>> 8) ^^^ params.table ((c ^^^ b.setWidth 16).extractLsb' 0 8) := by
  rw [crcStep, BitVec.setWidth_eq_extractLsb' (by decide)]

/-- Exclusive-or with `CRC_XOROUT = FFFFH` is the complement (40_crc.md R105). -/
theorem crcFinish_eq_not (c : Half) : crcFinish c = ~~~c := by
  rw [crcFinish, show crcXorOut = BitVec.allOnes 16 from rfl, BitVec.and_allOnes]

/-- CRC16 is the complement of the register after the buffer, from the seed (40_crc.md R106). -/
theorem crc16_eq_not_crcRun (buf : Buffer) : crc16 params buf = ~~~(crcRun params 0xFFFF buf) :=
  crcFinish_eq_not _

theorem exec_crcInit (s : State) : exec .crcInit s = .next (respond { s with crc := 0xFFFF } (.ok .done)) := rfl

theorem exec_crcUpd (b : Byte) (s : State) :
    exec (.crcUpd b) s = .next (respond { s with crc := crcStep params s.crc b } (.ok .done)) := rfl

/-- CRC.FIN answers the complement of the accumulator and leaves it (40_crc.md R105). -/
theorem answers_crcFin (s : State) : answers .crcFin s (.ok (.u16 (~~~s.crc))) := by
  rw [← crcFinish_eq_not]
  rfl

/-- CRC16 answers the CRC of its buffer and leaves the accumulator (40_crc.md R106). -/
theorem answers_crc16 (buf : Buffer) (s : State) : answers (.crc16 buf) s (.ok (.u16 (crc16 params buf))) := rfl

/-- The first step of the spec's example (40_crc.md R104). -/
theorem crcStep_seed_0x31 : crcStep params 0xFFFF 0x31 = 0x2F8D := by decide

/-- The CRC of no bytes is the complement of the seed (40_crc.md R106). -/
theorem crc16_nil : crc16 params [] = 0x0000 := by decide

/-- The check value of this CRC, over the digits 1 to 9 (40_crc.md R106). -/
theorem crc16_check_value :
    crc16 params [0x31, 0x32, 0x33, 0x34, 0x35, 0x36, 0x37, 0x38, 0x39] = 0x906E := by decide

/-- Settles O3. -/
theorem crcInitSetsSeed : Obligations.CrcInitSetsSeed :=
  exec_crcInit

/-- Settles O4: the step written as the spec writes it; after reset the accumulator holds the seed. -/
theorem crcUpdStepsAccumulator : Obligations.CrcUpdStepsAccumulator := by
  constructor
  · intro b s
    rw [exec_crcUpd, crcStep_eq]
    rfl
  · intro cfg
    rw [exec_crcUpd, boot_crc, crcStep_seed_0x31]
    rfl

/-- Settles O5: the two values are complements of the accumulator the state is known to hold. -/
theorem crcFinComplements : Obligations.CrcFinComplements := by
  refine ⟨answers_crcFin, fun s hcrc => ?_, fun s hcrc => ?_⟩
  · simpa [hcrc] using answers_crcFin s
  · simpa [hcrc] using answers_crcFin s

/-- Settles O6: the fold of the spec's step is the run of `crcStep`, and its two values are those of CRC16. -/
theorem crc16FoldsTheBuffer : Obligations.Crc16FoldsTheBuffer := by
  refine ⟨fun buf s => ?_, fun s => ?_, fun s => ?_⟩
  · have h := answers_crc16 buf s
    simp only [← crcStep_eq]
    rwa [crc16_eq_not_crcRun, crcRun] at h
  · rw [← crc16_nil]
    exact answers_crc16 [] s
  · rw [← crc16_check_value]
    exact answers_crc16 _ s

end Sys2Proof.Proofs
end

section
/-! The predicate `fits` (41_field.md R125): its three readings, each first as a fact about a 64-bit value and a
width, then for a kind. -/

namespace Sys2Proof.Proofs

open Machine Laws

/-! ### Zero-extended patterns: the value is below `2 ^ n` -/

/-- Nothing is left above `n` bits when the number is below `2 ^ n`. -/
theorem ushiftRight_eq_zero_iff_toNat_lt (v : Val) (n : Nat) : v >>> n = 0 ↔ v.toNat < 2 ^ n := by
  rw [← BitVec.toNat_inj, BitVec.toNat_ushiftRight, Nat.shiftRight_eq_div_pow]
  exact Nat.div_eq_zero_iff_lt (by positivity)

theorem toNat_lt_two_pow_iff_bits (v : Val) (n : Nat) :
    v.toNat < 2 ^ n ↔ ∀ i, n ≤ i → i < 64 → v.getLsbD i = false := by
  constructor
  · intro h i hi _
    exact Nat.testBit_lt_two_pow (h.trans_le (Nat.pow_le_pow_right (by decide) hi))
  · intro h
    refine Nat.lt_pow_two_of_testBit _ fun i hi => ?_
    by_cases h64 : i < 64
    · exact h i hi h64
    · exact BitVec.getLsbD_of_ge v i (by omega)

theorem toNat_lt_two_pow_iff_setWidth (v : Val) {n : Nat} (hn : n ≤ 64) :
    v.toNat < 2 ^ n ↔ ∃ p : BitVec n, v = p.setWidth 64 := by
  constructor
  · intro h
    refine ⟨v.setWidth n, BitVec.eq_of_toNat_eq ?_⟩
    rw [BitVec.toNat_setWidth_of_le hn, BitVec.toNat_setWidth, Nat.mod_eq_of_lt h]
  · rintro ⟨p, rfl⟩
    rw [BitVec.toNat_setWidth_of_le hn]
    exact p.isLt

/-! ### Sign-extended patterns: the signed value is in the range of `m + 1` bits -/

/-- Past the sign bit an arithmetic shift leaves copies of it alone when the number is in range. -/
theorem sshiftRight_eq_sign_iff_toInt_range (v : Val) (m : Nat) :
    v.sshiftRight m = 0 ∨ v.sshiftRight m = BitVec.allOnes 64 ↔ -(2 ^ m : Int) ≤ v.toInt ∧ v.toInt ≤ 2 ^ m - 1 := by
  have hpos : (0 : Int) < 2 ^ m := by positivity
  have hzero : v.sshiftRight m = 0 ↔ 0 * 2 ^ m ≤ v.toInt ∧ v.toInt < 0 * 2 ^ m + 2 ^ m := by
    rw [← Int.ediv_eq_iff_of_pos hpos, ← BitVec.toInt_inj, BitVec.toInt_sshiftRight, Int.shiftRight_eq_div_pow]
    simp
  have hones : v.sshiftRight m = BitVec.allOnes 64 ↔ -1 * 2 ^ m ≤ v.toInt ∧ v.toInt < -1 * 2 ^ m + 2 ^ m := by
    rw [← Int.ediv_eq_iff_of_pos hpos, ← BitVec.toInt_inj, BitVec.toInt_sshiftRight, Int.shiftRight_eq_div_pow]
    simp
  rw [hzero, hones]
  omega

/-- A bit of an arithmetic shift is the bit `m` places up, or the top bit where there is none. -/
theorem getLsbD_sshiftRight_eq_min (v : Val) {m j : Nat} (hj : j < 64) :
    (v.sshiftRight m).getLsbD j = v.getLsbD (min (m + j) 63) := by
  rw [BitVec.getLsbD_sshiftRight, BitVec.msb_eq_getLsbD_last]
  split
  · rw [Nat.min_eq_left (by omega)]
    simp [hj]
  · rw [Nat.min_eq_right (by omega)]
    simp [hj]

theorem sshiftRight_eq_sign_iff_bits (v : Val) {m : Nat} (hm : m < 64) :
    v.sshiftRight m = 0 ∨ v.sshiftRight m = BitVec.allOnes 64 ↔
      ∀ i, m ≤ i → i < 64 → v.getLsbD i = v.getLsbD m := by
  constructor
  · intro h i hmi hi
    have hshift : ∀ i, m ≤ i → i < 64 → v.getLsbD i = (v.sshiftRight m).getLsbD (i - m) := by
      intro i hmi hi
      rw [getLsbD_sshiftRight_eq_min v (by omega)]
      congr 1
      omega
    rw [hshift i hmi hi, hshift m le_rfl hm]
    rcases h with h | h
    · simp [h]
    · rw [h, BitVec.getLsbD_allOnes, BitVec.getLsbD_allOnes, decide_eq_decide]
      omega
  · intro h
    have hall : ∀ j, j < 64 → (v.sshiftRight m).getLsbD j = v.getLsbD m := fun j hj => by
      rw [getLsbD_sshiftRight_eq_min v hj]
      exact h _ (by omega) (by omega)
    cases hsign : v.getLsbD m with
    | false =>
      refine .inl (BitVec.eq_of_getLsbD_eq fun j hj => ?_)
      simp [hall j hj, hsign]
    | true =>
      refine .inr (BitVec.eq_of_getLsbD_eq fun j hj => ?_)
      rw [hall j hj, hsign, BitVec.getLsbD_allOnes, decide_eq_true hj]

theorem toInt_range_iff_signExtend (v : Val) {n : Nat} (h0 : 0 < n) (hn : n ≤ 64) :
    -(2 ^ (n - 1) : Int) ≤ v.toInt ∧ v.toInt ≤ 2 ^ (n - 1) - 1 ↔ ∃ p : BitVec n, v = p.signExtend 64 := by
  constructor
  · rintro ⟨hlo, hhi⟩
    refine ⟨BitVec.ofInt n v.toInt, BitVec.eq_of_toInt_eq ?_⟩
    rw [BitVec.toInt_signExtend_of_le hn, BitVec.toInt_ofInt_eq_self h0 hlo (by omega)]
  · rintro ⟨p, rfl⟩
    rw [BitVec.toInt_signExtend_of_le hn]
    exact ⟨p.le_toInt, Int.le_sub_one_of_lt p.toInt_lt⟩

/-! ### For a kind -/

/-- A kind has 1 to 8 bytes (41_field.md R120). -/
theorem kindBytes_bounds (k : Kind) : 0 < Kind.bytes k ∧ Kind.bytes k ≤ 8 := by
  cases k <;> decide

theorem valForm_unsigned {k : Kind} (h : Kind.signed k = false) {n : Nat} (p : BitVec (8 * n)) :
    valForm k p = p.setWidth 64 := by
  simp [valForm, h]

theorem valForm_signed {k : Kind} (h : Kind.signed k = true) {n : Nat} (p : BitVec (8 * n)) :
    valForm k p = p.signExtend 64 := by
  simp [valForm, h]

/-- `fits` for the unsigned kinds and the floats, as the number of VAL. -/
theorem fits_unsigned_iff_toNat_lt {k : Kind} (h : Kind.signed k = false) (v : Val) :
    fits k v = true ↔ v.toNat < 2 ^ (8 * Kind.bytes k) := by
  rw [← ushiftRight_eq_zero_iff_toNat_lt]
  simp [fits, h]

/-- `fits` for the signed kinds: from the pattern's top bit up, nothing but its sign. -/
theorem fits_signed_iff_sshiftRight {k : Kind} (h : Kind.signed k = true) (v : Val) :
    fits k v = true ↔ v.sshiftRight (8 * Kind.bytes k - 1) = 0 ∨
      v.sshiftRight (8 * Kind.bytes k - 1) = BitVec.allOnes 64 := by
  simp only [fits, h, if_true, Bool.or_eq_true, beq_iff_eq]

/-- `fits` for the signed kinds, as the signed number of VAL. -/
theorem fits_signed_iff_toInt_range {k : Kind} (h : Kind.signed k = true) (v : Val) :
    fits k v = true ↔
      -(2 ^ (8 * Kind.bytes k - 1) : Int) ≤ v.toInt ∧ v.toInt ≤ 2 ^ (8 * Kind.bytes k - 1) - 1 := by
  rw [fits_signed_iff_sshiftRight h, sshiftRight_eq_sign_iff_toInt_range]

/-- `fits` says that VAL is the form of a pattern of the kind. -/
theorem fits_iff_exists_valForm (k : Kind) (v : Val) :
    fits k v = true ↔ ∃ p : BitVec (8 * Kind.bytes k), v = valForm k p := by
  obtain ⟨hpos, hle⟩ := kindBytes_bounds k
  cases h : Kind.signed k with
  | false =>
    simp only [valForm_unsigned h]
    rw [fits_unsigned_iff_toNat_lt h, toNat_lt_two_pow_iff_setWidth v (by omega)]
  | true =>
    simp only [valForm_signed h]
    rw [fits_signed_iff_toInt_range h, toInt_range_iff_signExtend v (by omega) (by omega)]

/-- Settles O12: for the unsigned kinds every reading is `VAL < 2 ^ (8n)`, for the signed kinds it is that the
arithmetic shift leaves the sign alone. -/
theorem fitsMeansFormOfAPattern : Obligations.FitsMeansFormOfAPattern := by
  intro k v
  refine ⟨fits_iff_exists_valForm k v, fun h => ⟨?_, ?_⟩, fun h => ⟨?_, fits_signed_iff_toInt_range h v⟩, ?_⟩
  · rw [fits_unsigned_iff_toNat_lt h, toNat_lt_two_pow_iff_bits]
  · rw [fits_unsigned_iff_toNat_lt h, Nat.lt_iff_le_pred (by positivity)]
  · have hle := (kindBytes_bounds k).2
    rw [fits_signed_iff_sshiftRight h, sshiftRight_eq_sign_iff_bits v (by omega)]
  · exact (fits_unsigned_iff_toNat_lt rfl v).mpr v.isLt

end Sys2Proof.Proofs
end

section
/-! What `kind_of` answers (41_field.md R121, R122), and GETP and COMMAND by it. -/

namespace Sys2Proof.Proofs

open Machine Laws Safety

/-- The legal sizes as a list. -/
theorem legalSize_iff_mem {n : Nat} : legalSize n = true ↔ n ∈ [1, 2, 4, 8] := by
  simp [legalSize, or_assoc]

/-- The code of each data type stands for it (30_encoding.md R75). -/
theorem dataTypeOf_dtCode (t : DataType) : dataTypeOf params (dtCode t) = some t := by
  cases t <;> rfl

/-- A legal size of a type with a kind there. -/
theorem kindOf_of_kindFor {p : Params} {n : Nat} {dt : BitVec 2} {t : DataType} {k : Kind} (hn : legalSize n = true)
    (ht : dataTypeOf p dt = some t) (hk : kindFor p n t = some k) : kindOf p n dt = .ok k := by
  simp [kindOf, hn, ht, hk]

/-- A legal size of a type without a kind there (41_field.md R121, last line). -/
theorem kindOf_of_noKind {p : Params} {n : Nat} {dt : BitVec 2} {t : DataType} (hn : legalSize n = true)
    (ht : dataTypeOf p dt = some t) (hk : kindFor p n t = none) :
    kindOf p n dt = .err .noParserForCombination (half n) (dt.setWidth 16) := by
  simp [kindOf, hn, ht, hk]

theorem kindOf_of_not_mem {p : Params} {n : Nat} {dt : BitVec 2} (hn : n ∉ [1, 2, 4, 8]) :
    kindOf p n dt = .err .unsupportedSize (half n) 0 :=
  kindOf_illegal (by rwa [← legalSize_iff_mem, Bool.not_eq_true] at hn)

/-- FLOAT has no kind of 1 or 2 bytes (41_field.md R121). -/
theorem kindOf_short_float {n : Nat} (hn : n ∈ [1, 2]) :
    kindOf params n 2 = .err .noParserForCombination (half n) 2 := by
  obtain rfl | rfl : n = 1 ∨ n = 2 := by simpa using hn
  all_goals exact kindOf_of_noKind rfl (dataTypeOf_dtCode .float) rfl

/-- Every legal size has an unsigned kind (41_field.md R121). -/
theorem exists_unsignedKind {n : Nat} (hn : legalSize n = true) : ∃ k, unsignedKind n = some k := by
  obtain rfl | rfl | rfl | rfl : n = 1 ∨ n = 2 ∨ n = 4 ∨ n = 8 := by simpa using legalSize_iff_mem.mp hn
  all_goals exact ⟨_, rfl⟩

/-- A 4-bit size as a detail word. -/
theorem half_toNat (size : BitVec 4) : half size.toNat = size.setWidth 16 :=
  BitVec.ofNat_toNat 16 size

/-- GETP answers what `kind_of` does (41_field.md R121). -/
theorem answers_getp {size : BitVec 4} {dt : BitVec 2} {r : Result Kind} (s : State)
    (h : kindOf params size.toNat dt = r) : answers (.getp size dt) s (Result.map .kind r) := by
  subst h
  rfl

/-- Settles O10: the two errors by the lemmas of `kind_of`, the fourteen kinds by its table. -/
theorem getpSelectsKind : Obligations.GetpSelectsKind := by
  refine ⟨fun size dt s hn => ?_, fun size hsize s => ?_, fun r hr s => ?_⟩
  · rw [← half_toNat]
    exact answers_getp s (kindOf_of_not_mem hn)
  · rw [← half_toNat]
    have hn : size.toNat ∈ [1, 2] := by
      obtain rfl | rfl : size = 1 ∨ size = 2 := by simpa using hsize
      all_goals decide
    exact answers_getp s (kindOf_short_float hn)
  · have hk : kindOf params r.1.toNat r.2.1 = .ok r.2.2 := by
      revert r
      decide
    exact answers_getp s hk

/-- Settles O11: with COMMAND as UINT both types take the unsigned kind of a legal size; with "no parser" COMMAND
takes none. -/
theorem commandFieldsAreUnsigned : Obligations.CommandFieldsAreUnsigned := by
  refine ⟨fun n => ?_, fun n hn => ?_⟩
  · cases hn : legalSize n with
    | false => rw [kindOf_illegal hn, kindOf_illegal hn]
    | true =>
      obtain ⟨k, hk⟩ := exists_unsignedKind hn
      have hcommand : kindFor params n .command = some k := hk
      have huint : kindFor params n .uint = some k := hk
      rw [kindOf_of_kindFor hn (dataTypeOf_dtCode .command) hcommand,
        kindOf_of_kindFor hn (dataTypeOf_dtCode .uint) huint]
  · exact kindOf_of_noKind (legalSize_iff_mem.mpr hn) (dataTypeOf_dtCode .command) rfl

end Sys2Proof.Proofs
end

section
/-! PARSE and GENP (41_field.md R126, R128): the errors of `kind_of` pass through, then the pattern is extended
or written. -/

namespace Sys2Proof.Proofs

open Machine Laws Safety

/-- A whole buffer read as one number is its little-endian number (20_memory.md R50). -/
theorem memRead_whole_toNat (buf : Buffer) : (memRead buf 0 buf.length).toNat = leNat buf := by
  rw [memRead_toNat (by omega)]
  simp [slice]

/-- PARSE passes on the errors of `kind_of`. -/
theorem parse_of_kindOf_err {p : Params} {buf : Buffer} {dt : BitVec 2} {e : ErrName} {d0 d1 : Half}
    (h : kindOf p buf.length dt = .err e d0 d1) : parse p buf dt = .err e d0 d1 := by
  simp [parse, h]

/-- PARSE answers what `parse` does (41_field.md R126). -/
theorem answers_parse {buf : Buffer} {dt : BitVec 2} {r : Result (Kind × Val)} (s : State)
    (h : parse params buf dt = r) : answers (.parse buf dt) s (Result.map (fun kv => .value kv.1 kv.2) r) := by
  subst h
  rfl

theorem answers_parse_err {buf : Buffer} {dt : BitVec 2} {e : ErrName} {d0 d1 : Half} (s : State)
    (h : kindOf params buf.length dt = .err e d0 d1) : answers (.parse buf dt) s (.err e d0 d1) :=
  answers_parse s (parse_of_kindOf_err h)

/-- Settles O13: the pattern is the whole buffer read as one number, and `valForm` extends it. -/
theorem parseExtendsThePattern : Obligations.ParseExtendsThePattern := by
  intro buf dt s
  refine ⟨fun e d0 d1 h => answers_parse_err s h, fun hn => answers_parse_err s (kindOf_of_not_mem hn), ?_, ?_⟩
  · rintro hn rfl
    exact answers_parse_err s (kindOf_short_float hn)
  · intro k h
    exact ⟨memRead buf 0 buf.length, memRead_whole_toNat buf, answers_parse s (parse_ok_iff.mpr ⟨h, rfl⟩)⟩

/-- Byte `j` of the little-endian bytes of a number (20_memory.md R50). -/
theorem leBytes_getElem?_eq_div {n j : Nat} (v : Nat) (hj : j < n) :
    (leBytes n v)[j]? = some (BitVec.ofNat 8 (v / 256 ^ j)) := by
  induction n generalizing j v with
  | zero => omega
  | succ n ih =>
    cases j with
    | zero => simp [leBytes]
    | succ j => rw [leBytes, List.getElem?_cons_succ, ih _ (by omega), Nat.div_div_eq_div_mul, Nat.pow_succ']

/-- Byte `j` of the little-endian bytes of a word is its bits `8j+7:8j` (20_memory.md R50). -/
theorem leBytes_getElem?_eq_extractLsb' {w n j : Nat} (x : BitVec w) (hj : j < n) :
    (leBytes n x.toNat)[j]? = some (x.extractLsb' (8 * j) 8) := by
  rw [leBytes_getElem?_eq_div _ hj, pow_256, ← Nat.shiftRight_eq_div_pow]
  rfl

/-- GENP passes on the errors of `kind_of`. -/
theorem genPayload_of_kindOf_err {p : Params} {dt : BitVec 2} {n : Nat} {val : Val} {e : ErrName} {d0 d1 : Half}
    (h : kindOf p n dt = .err e d0 d1) : genPayload p dt n val = .err e d0 d1 := by
  simp [genPayload, h]

/-- GENP refuses a value that is no form of the kind. -/
theorem genPayload_outOfRange {p : Params} {dt : BitVec 2} {n : Nat} {val : Val} {k : Kind}
    (h : kindOf p n dt = .ok k) (hfits : fits k val = false) :
    genPayload p dt n val = .err .valueOutOfRange (half n) (dt.setWidth 16) := by
  simp [genPayload, h, hfits]

/-- GENP answers what `gen_payload` does (41_field.md R128). -/
theorem answers_genp {dt : BitVec 2} {size : BitVec 4} {val : Val} {r : Result Buffer} (s : State)
    (h : genPayload params dt size.toNat val = r) : answers (.genp dt size val) s (Result.map .bytes r) := by
  subst h
  rfl

/-- Settles O14: the errors in the order of the tests, and the bytes of the low part of VAL are bytes of VAL. -/
theorem genpWritesThePattern : Obligations.GenpWritesThePattern := by
  intro dt size val s
  refine ⟨fun e d0 d1 h => answers_genp s (genPayload_of_kindOf_err h), fun k h =>
    ⟨fun hfits => ?_, fun hfits => ?_⟩⟩
  · rw [← half_toNat]
    exact answers_genp s (genPayload_outOfRange h hfits)
  · refine ⟨_, answers_genp s (genPayload_ok_iff.mpr ⟨k, h, hfits, rfl⟩), leBytes_length _ _, fun j hj => ?_⟩
    rw [leBytes_getElem?_eq_extractLsb' _ hj, BitVec.extractLsb'_setWidth_of_le (by omega)]

end Sys2Proof.Proofs
end

section
/-! U16PK and U16UP (41_field.md R130, R131). -/

namespace Sys2Proof.Proofs

open Machine Laws Safety

/-- U16PK fails outside 0 to 65535 (41_field.md R130). -/
theorem u16Pack_outOfRange {v : BitVec 32} (h : v.toInt < 0 ∨ 65535 < v.toInt) :
    u16Pack v = .err .u16OutOfRange (v.extractLsb' 0 16) (v.extractLsb' 16 16) :=
  if_pos h

/-- U16PK answers what `u16_pack` does (41_field.md R130). -/
theorem answers_u16pk {v : BitVec 32} {r : Result Buffer} (s : State) (h : u16Pack v = r) :
    answers (.u16pk v) s (Result.map .bytes r) := by
  subst h
  rfl

/-- U16UP answers the two bytes joined (41_field.md R131). -/
theorem answers_u16up (b0 b1 : Byte) (s : State) : answers (.u16up b0 b1) s (.ok (.u16 (b1 ++ b0))) := rfl

/-- The number of two bytes, the first being the low one (41_field.md R131). -/
theorem u16Unpack_toNat (b0 b1 : Byte) : (u16Unpack b0 b1).toNat = b0.toNat + 256 * b1.toNat := by
  rw [u16Unpack, BitVec.toNat_append, ← Nat.shiftLeft_add_eq_or_of_lt b0.isLt, Nat.shiftLeft_eq]
  omega

/-- A word of 0 to 65535 is the number of its two low bytes. -/
theorem u16Unpack_low_bytes {v : BitVec 32} (h0 : 0 ≤ v.toInt) (h1 : v.toInt ≤ 65535) :
    (u16Unpack (v.extractLsb' 0 8) (v.extractLsb' 8 8)).toNat = v.toNat := by
  have hlt : v.toNat < 65536 := by
    rw [BitVec.toInt_eq_toNat_cond] at h0 h1
    split at h0 <;> omega
  rw [u16Unpack_toNat, BitVec.extractLsb'_toNat, BitVec.extractLsb'_toNat, Nat.shiftRight_eq_div_pow,
    Nat.shiftRight_eq_div_pow]
  omega

/-- Settles O16. -/
theorem u16pkPacksTheRange : Obligations.U16pkPacksTheRange :=
  fun _ s => ⟨fun ⟨h0, h1⟩ => answers_u16pk s (u16Pack_ok_iff.mpr ⟨h0, h1, rfl⟩),
    fun h => answers_u16pk s (u16Pack_outOfRange h)⟩

/-- Settles O17: the number of the joined bytes, taken of the two bytes that U16PK answers. -/
theorem u16upInvertsPacking : Obligations.U16upInvertsPacking := by
  refine ⟨fun b0 b1 s => ⟨b1 ++ b0, rfl, u16Unpack_toNat b0 b1, answers_u16up b0 b1 s⟩, fun v h0 h1 => ?_⟩
  exact ⟨_, _, u16Pack_ok_iff.mpr ⟨h0, h1, rfl⟩, u16Unpack_low_bytes h0 h1⟩

end Sys2Proof.Proofs
end

section
/-! ENC and FS.ENC (42_framer.md R152, R156): each check of ENC in its order, then the packet byte by byte. -/

namespace Sys2Proof.Proofs

open Machine Laws Safety

/-! ### The bytes of the packet -/

/-- The little-endian bytes of the low part of a word are its bytes, lowest first (20_memory.md R50). -/
theorem leBytes_setWidth_eq_map {w : Nat} (x : BitVec w) (n : Nat) :
    leBytes n (x.setWidth (8 * n)).toNat = (List.range n).map (fun j => x.extractLsb' (8 * j) 8) := by
  refine List.ext_getElem? fun j => ?_
  by_cases hj : j < n
  · rw [leBytes_getElem?_eq_extractLsb' _ hj, BitVec.extractLsb'_setWidth_of_le (by omega)]
    simp [hj]
  · rw [List.getElem?_eq_none (by simp; omega), List.getElem?_eq_none (by simp; omega)]

/-- The trailer spelt out: the CRC's low byte, its high byte, the terminator (30_encoding.md R77). -/
theorem withTrailer_eq_append (body : Buffer) (crc : Half) :
    withTrailer body crc = body ++ [crc.extractLsb' 0 8, crc.extractLsb' 8 8, 0x0D, 0x0A] := by
  have hcrc : leBytes 2 crc.toNat = [crc.extractLsb' 0 8, crc.extractLsb' 8 8] := leBytes_setWidth_eq_map crc 2
  rw [withTrailer, hcrc, List.append_assoc]
  rfl

/-- The cfg1 byte as the concatenation of its fields, in the layout taken (30_encoding.md R74). -/
theorem cfg1Pack_params (m : BitVec 4) (s d : BitVec 2) : cfg1Pack params.layout m s d = m ++ s ++ d :=
  BitVec.setWidth_eq _

/-- The size code of a legal size is its logarithm (30_encoding.md R76). -/
theorem szfOfSize_of_mem {n : Nat} (hn : n ∈ [1, 2, 4, 8]) : szfOfSize n = some (BitVec.ofNat 2 (Nat.log2 n)) := by
  revert n
  decide

/-- Any other size has no code (42_framer.md R152 step 3b). -/
theorem szfOfSize_of_not_mem {n : Nat} (hn : n ∉ [1, 2, 4, 8]) : szfOfSize n = none := by
  simp only [List.mem_cons, List.not_mem_nil, or_false, not_or] at hn
  simp [szfOfSize, hn]

/-- GENP's payload as the low bytes of VAL. -/
theorem genPayload_of_fits {p : Params} {dt : BitVec 2} {n : Nat} {val : Val} {k : Kind}
    (h : kindOf p n dt = .ok k) (hfits : fits k val = true) :
    genPayload p dt n val = .ok ((List.range n).map (fun j => val.extractLsb' (8 * j) 8)) :=
  genPayload_ok_iff.mpr ⟨k, h, hfits, (leBytes_setWidth_eq_map val n).symm⟩

/-! ### The checks, in the order of ENC's steps -/

section

variable {p : Params} {cfg : Cfg} {seq mt : BitVec 32} {val : Val} {e : ChEntry}

theorem encodeSp_of_noChannel (hc : channel cfg mt.toInt = none) :
    encodeSp p cfg seq mt val = .err .unknownMsgType (mt.extractLsb' 0 16) (mt.extractLsb' 16 16) := by
  simp [encodeSp, hc]

theorem encodeSp_of_seq_outOfRange (hc : channel cfg mt.toInt = some e) (hseq : seq.toInt < 0 ∨ 65535 < seq.toInt) :
    encodeSp p cfg seq mt val = .err .u16OutOfRange (seq.extractLsb' 0 16) (seq.extractLsb' 16 16) := by
  simp [encodeSp, hc, u16Pack_outOfRange hseq]

theorem encodeSp_of_illegal_size (hc : channel cfg mt.toInt = some e) (hseq : 0 ≤ seq.toInt ∧ seq.toInt ≤ 65535)
    (hsize : e.size.toNat ∉ [1, 2, 4, 8]) :
    encodeSp p cfg seq mt val = .err .unsupportedSize (half e.size.toNat) 0 := by
  simp [encodeSp, hc, u16Pack_ok_iff.mpr ⟨hseq.1, hseq.2, rfl⟩, szfOfSize_of_not_mem hsize]

/-- With the channel, the sequence number and the size in order, the rest of ENC decides. -/
theorem encodeSp_eq_encodeTail (hc : channel cfg mt.toInt = some e) (hseq : 0 ≤ seq.toInt ∧ seq.toInt ≤ 65535)
    (hsize : e.size.toNat ∈ [1, 2, 4, 8]) :
    encodeSp p cfg seq mt val = encodeTail p cfg e [seq.extractLsb' 0 8, seq.extractLsb' 8 8]
      (BitVec.ofNat 2 (Nat.log2 e.size.toNat)) mt val := by
  simp [encodeSp, hc, u16Pack_ok_iff.mpr ⟨hseq.1, hseq.2, rfl⟩, szfOfSize_of_mem hsize]

theorem encodeTail_of_mt_overflow {seqBytes : Buffer} {szf : BitVec 2} (hmt : mtWireMax < mt.toInt) :
    encodeTail p cfg e seqBytes szf mt val = .err .msgTypeOverflow (mt.extractLsb' 0 16) 0 :=
  if_pos hmt

/-- ENC passes on the errors of GENP. -/
theorem encodeTail_of_genPayload_err {seqBytes : Buffer} {szf : BitVec 2} {er : ErrName} {d0 d1 : Half}
    (hmt : mt.toInt ≤ mtWireMax) (hpayload : genPayload p e.dt e.size.toNat val = .err er d0 d1) :
    encodeTail p cfg e seqBytes szf mt val = .err er d0 d1 := by
  rw [encodeTail, if_neg (not_lt.mpr hmt), hpayload]

end

/-! ### The instructions -/

/-- ENC answers what `encodeSp` does (42_framer.md R152). -/
theorem answers_enc {seq mt : BitVec 32} {val : Val} {r : Result Buffer} (s : State)
    (h : encodeSp params s.cfg seq mt val = r) : answers (.enc seq mt val) s (Result.map .bytes r) := by
  subst h
  rfl

/-- Settles O20: one lemma per check, in their order; past them all, the body and the trailer are spelt out. -/
theorem encBuildsThePacket : Obligations.EncBuildsThePacket := by
  intro seq mt val s
  refine ⟨fun hc => answers_enc s (encodeSp_of_noChannel hc), fun e hc =>
    ⟨fun hseq => answers_enc s (encodeSp_of_seq_outOfRange hc hseq), fun hseq => ⟨fun hsize => ?_, fun hsize => ?_⟩⟩⟩
  · rw [← half_toNat]
    exact answers_enc s (encodeSp_of_illegal_size hc hseq hsize)
  have htail := encodeSp_eq_encodeTail (p := params) (val := val) hc hseq hsize
  refine ⟨fun hmt => answers_enc s (htail.trans (encodeTail_of_mt_overflow hmt)), fun hmt =>
    ⟨fun ⟨hdt, hshort⟩ => ?_, fun k hk => ⟨fun hfits => ?_, fun hfits => ⟨_, _, rfl, rfl, ?_⟩⟩⟩⟩
  · have hkind : kindOf params e.size.toNat e.dt = .err .noParserForCombination (half e.size.toNat) 2 :=
      hdt ▸ kindOf_short_float hshort
    rw [← half_toNat]
    exact answers_enc s (htail.trans (encodeTail_of_genPayload_err hmt (genPayload_of_kindOf_err hkind)))
  · rw [← half_toNat]
    exact answers_enc s (htail.trans (encodeTail_of_genPayload_err hmt (genPayload_outOfRange hk hfits)))
  · have hpacket := answers_enc s (encodeSp_ok_iff.mpr ⟨e, _, _, _, hc, u16Pack_ok_iff.mpr ⟨hseq.1, hseq.2, rfl⟩,
      szfOfSize_of_mem hsize, hmt, genPayload_of_fits hk hfits, rfl⟩)
    rw [withTrailer_eq_append, cfg1Pack_params] at hpacket
    exact hpacket

/-- Settles O23: `execFsEnc` raises the error and writes nothing but the response, whatever MODE is. -/
theorem fsEncIsNotImplemented : Obligations.FsEncIsNotImplemented :=
  fun _ => rfl

end Sys2Proof.Proofs
end

section
/-! What both decoders read of a frame and check first (43_deframer.md R172 to R174, R182 to R184). -/

namespace Sys2Proof.Proofs

open Machine Laws Safety

/-- A slice given by its offset and its length. -/
theorem slice_add (buf : Buffer) (off n : Nat) : slice buf off (off + n) = (buf.drop off).take n := by
  rw [slice, Nat.add_sub_cancel_left]

/-- A 16-bit field is its two bytes joined, the low one first on the wire (20_memory.md R50). -/
theorem memRead_two_eq_append {buf : Buffer} {off : Nat} {lo hi : Byte} (hlo : buf[off]? = some lo)
    (hhi : buf[off + 1]? = some hi) : (memRead buf off 2).setWidth 16 = hi ++ lo := by
  have hnum : leNat [lo, hi] = (hi ++ lo : BitVec 16).toNat := (u16Unpack_toNat lo hi).symm
  rw [memRead, bytesAt, bytesAt, bytesAt, byteAt_of_getElem? hlo, byteAt_of_getElem? hhi, hnum,
    BitVec.ofNat_toNat]
  simp only [BitVec.setWidth_eq]

section

variable {α : Type} {p : Params} {cfg : Cfg} {buf : Buffer} {k : Result α} {b0 b1 b2 lo hi : Byte}

/-- The CRC a frame carries, from the two bytes before the terminator (30_encoding.md R77). -/
theorem embeddedCrc_eq_append (h4 : 4 ≤ buf.length) (hlo : buf[buf.length - 4]? = some lo)
    (hhi : buf[buf.length - 3]? = some hi) : (memRead buf (buf.length - 4) 2).setWidth 16 = hi ++ lo := by
  have hnext : buf.length - 3 = buf.length - 4 + 1 := by omega
  exact memRead_two_eq_append hlo (hnext ▸ hhi)

/-- The bytes the CRC is recomputed over (43_deframer.md R174, R184). -/
theorem checkedBytes_eq_take (buf : Buffer) : slice buf 0 (buf.length - 4) = buf.take (buf.length - 4) := rfl

/-- The length byte is checked first (43_deframer.md R172, R182). -/
theorem checkedFrame_of_length_ne (h2 : buf[2]? = some b2) (hlen : buf.length ≠ b2.toNat) :
    checkedFrame p cfg buf k = .err .invalidPacketSizeByte (half buf.length) (b2.setWidth 16) := by
  rw [checkedFrame, byteAt_of_getElem? h2, if_pos hlen]

/-- The version bytes are checked second (43_deframer.md R173, R183). -/
theorem checkedFrame_of_version_ne (h0 : buf[0]? = some b0) (h1 : buf[1]? = some b1) (h2 : buf[2]? = some b2)
    (hlen : buf.length = b2.toNat) (hver : b0 ≠ cfg.ver0 ∨ b1 ≠ cfg.ver1) :
    checkedFrame p cfg buf k = .err .invalidVersionBytes (b1 ++ b0) (cfg.ver1 ++ cfg.ver0) := by
  rw [checkedFrame, byteAt_of_getElem? h0, byteAt_of_getElem? h1, byteAt_of_getElem? h2, if_neg (not_not_intro hlen),
    if_pos hver]

/-- With the length byte and the version bytes in order, the CRC decides (43_deframer.md R174, R184). -/
theorem checkedFrame_eq_crcCheck (hlen : lengthByteOk buf) (hver : versionOk cfg buf) (h4 : 4 ≤ buf.length)
    (hlo : buf[buf.length - 4]? = some lo) (hhi : buf[buf.length - 3]? = some hi) :
    checkedFrame p cfg buf k =
      if crc16 p (buf.take (buf.length - 4)) ≠ hi ++ lo then
        .err .invalidCRC16 (crc16 p (buf.take (buf.length - 4))) (hi ++ lo)
      else k := by
  obtain ⟨b2, h2, hb2⟩ := hlen
  obtain ⟨h0, h1⟩ := hver
  rw [checkedFrame, byteAt_of_getElem? h0, byteAt_of_getElem? h1, byteAt_of_getElem? h2,
    if_neg (not_not_intro hb2.symm), if_neg (by simp), checkedBytes_eq_take, embeddedCrc_eq_append h4 hlo hhi]

/-- The CRC is checked third (43_deframer.md R174, R184). -/
theorem checkedFrame_of_crc_ne (h0 : buf[0]? = some b0) (h1 : buf[1]? = some b1) (h2 : buf[2]? = some b2)
    (hlen : buf.length = b2.toNat) (hver : b0 = cfg.ver0 ∧ b1 = cfg.ver1) (h4 : 4 ≤ buf.length)
    (hlo : buf[buf.length - 4]? = some lo) (hhi : buf[buf.length - 3]? = some hi)
    (hcrc : crc16 p (buf.take (buf.length - 4)) ≠ hi ++ lo) :
    checkedFrame p cfg buf k = .err .invalidCRC16 (crc16 p (buf.take (buf.length - 4))) (hi ++ lo) := by
  obtain ⟨rfl, rfl⟩ := hver
  rw [checkedFrame_eq_crcCheck ⟨b2, h2, hlen.symm⟩ ⟨h0, h1⟩ h4 hlo hhi, if_pos hcrc]

/-- A frame that passes the three checks is left to the rest of the decode. -/
theorem checkedFrame_of_ok (hlen : lengthByteOk buf) (hver : versionOk cfg buf) (hcrc : crcOk p buf)
    (h4 : 4 ≤ buf.length) : checkedFrame p cfg buf k = k := by
  obtain ⟨lo, hi, hlo, hhi, hcrc⟩ := hcrc
  rw [checkedFrame_eq_crcCheck hlen hver h4 hlo hhi, if_neg (not_not_intro hcrc)]

/-- The errors of the three checks, or an error of the rest of the decode. -/
theorem checkedFrame_err_cases {e : ErrName} {d0 d1 : Half} (h : checkedFrame p cfg buf k = .err e d0 d1) :
    e ∈ [.invalidPacketSizeByte, .invalidVersionBytes, .invalidCRC16] ∨ k = .err e d0 d1 := by
  unfold checkedFrame at h
  split at h
  · cases h; exact .inl (by decide)
  split at h
  · cases h; exact .inl (by decide)
  split at h
  · cases h; exact .inl (by decide)
  · exact .inr h

end

end Sys2Proof.Proofs
end

section
/-! DEC (43_deframer.md R170 to R178): the header checks, the checks on the cfg1 byte, the message. -/

namespace Sys2Proof.Proofs

open Machine Laws Safety

/-- DEC answers what `decodeSp` does (43_deframer.md R170). -/
theorem answers_dec {buf : Buffer} {r : Result Msg} (s : State) (h : decodeSp params s.cfg buf = r) :
    answers (.dec buf) s (Result.map (fun m => .decoded (.single m)) r) := by
  subst h
  rfl

/-! ### The header -/

/-- Eleven bytes are the overhead alone (43_deframer.md R171). -/
theorem decodeSp_of_small {p : Params} {cfg : Cfg} {buf : Buffer} (h : buf.length ≤ 11) :
    decodeSp p cfg buf = .err .packetTooSmall (half buf.length) 0 :=
  if_pos h

/-- With more than eleven bytes the header checks follow. -/
theorem decodeSp_eq_checkedFrame {p : Params} {cfg : Cfg} {buf : Buffer} (h : 11 < buf.length) :
    decodeSp p cfg buf = checkedFrame p cfg buf (decodeFields p cfg buf) :=
  if_neg (not_le.mpr h)

/-- Settles O24: one lemma per check, in their order. -/
theorem decHeaderChecksInOrder : Obligations.DecHeaderChecksInOrder := by
  intro buf s
  refine ⟨fun hsmall => answers_dec s (decodeSp_of_small hsmall), fun hbig b0 b1 b2 lo hi h0 h1 h2 hlo hhi => ?_⟩
  have hdec := decodeSp_eq_checkedFrame (p := params) (cfg := s.cfg) hbig
  refine ⟨fun hlen => answers_dec s (hdec.trans (checkedFrame_of_length_ne h2 hlen)), fun hlen =>
    ⟨fun hver => answers_dec s (hdec.trans (checkedFrame_of_version_ne h0 h1 h2 hlen hver)), fun hver hcrc => ?_⟩⟩
  exact answers_dec s (hdec.trans (checkedFrame_of_crc_ne h0 h1 h2 hlen hver (by omega) hlo hhi hcrc))

/-! ### The cfg1 byte -/

/-- A size field stands for a legal size (30_encoding.md R76). -/
theorem sizeOfSzf_mem (szf : BitVec 2) : sizeOfSzf szf ∈ [1, 2, 4, 8] := by
  revert szf
  decide

/-- The data type field in the layout taken (30_encoding.md R74). -/
theorem cfg1Dtf_params (c : Byte) : cfg1Dtf params.layout c = c.extractLsb' 0 2 := rfl

/-- The size field in the layout taken (30_encoding.md R74). -/
theorem cfg1Szf_params (c : Byte) : cfg1Szf params.layout c = c.extractLsb' 2 2 := rfl

/-- The msg_type field in the layout taken (30_encoding.md R74). -/
theorem cfg1Mtf_params (c : Byte) : cfg1Mtf params.layout c = c.extractLsb' 4 4 := rfl

/-- With the codes taken, `kind_of` fails for the size or for want of a kind (41_field.md R121). -/
theorem kindOf_err_cases {n : Nat} {dt : BitVec 2} {e : ErrName} {d0 d1 : Half}
    (h : kindOf params n dt = .err e d0 d1) : e ∈ [.unsupportedSize, .noParserForCombination] := by
  obtain ⟨t, ht⟩ := dataTypeOf_params dt
  cases hn : legalSize n with
  | false =>
    rw [kindOf_illegal hn] at h
    cases h
    decide
  | true =>
    cases hk : kindFor params n t with
    | none =>
      rw [kindOf_of_noKind hn ht hk] at h
      cases h
      decide
    | some k =>
      rw [kindOf_of_kindFor hn ht hk] at h
      cases h

/-- PARSE has no errors but those of `kind_of` (41_field.md R126). -/
theorem kindOf_of_parse_err {p : Params} {buf : Buffer} {dt : BitVec 2} {e : ErrName} {d0 d1 : Half}
    (h : parse p buf dt = .err e d0 d1) : kindOf p buf.length dt = .err e d0 d1 := by
  cases hk : kindOf p buf.length dt with
  | ok k =>
    rw [parse_ok_iff.mpr ⟨hk, rfl⟩] at h
    cases h
  | err e' d0' d1' =>
    rw [parse_of_kindOf_err hk] at h
    cases h
    rfl

section

variable {cfg : Cfg} {buf : Buffer} {c : Byte}

/-- The payload as long as the size field says is as long as the frame leaves room for. -/
theorem payload_length (hbig : 11 < buf.length) : ((buf.drop 7).take (buf.length - 11)).length = buf.length - 11 := by
  rw [List.length_take, List.length_drop]
  omega

/-- The size field is checked first, every code being a data type (43_deframer.md R176). -/
theorem decodeFields_of_size_ne (h5 : buf[5]? = some c) (hsize : sizeOfSzf (c.extractLsb' 2 2) ≠ buf.length - 11) :
    decodeFields params cfg buf =
      .err .invalidDataLengthBits (half (sizeOfSzf (c.extractLsb' 2 2))) (half (buf.length - 11)) := by
  obtain ⟨t, ht⟩ := dataTypeOf_params (c.extractLsb' 0 2)
  simp only [decodeFields, byteAt_of_getElem? h5, cfg1Dtf_params, cfg1Szf_params, ht, spOverhead, if_pos hsize]

/-- The msg_type is checked next (43_deframer.md R176). -/
theorem decodeFields_of_noChannel (h5 : buf[5]? = some c) (hsize : sizeOfSzf (c.extractLsb' 2 2) = buf.length - 11)
    (hch : channel cfg (c.extractLsb' 4 4).toNat = none) :
    decodeFields params cfg buf = .err .invalidMsgTypeBits ((c.extractLsb' 4 4).setWidth 16) 0 := by
  obtain ⟨t, ht⟩ := dataTypeOf_params (c.extractLsb' 0 2)
  simp only [decodeFields, byteAt_of_getElem? h5, cfg1Dtf_params, cfg1Szf_params, cfg1Mtf_params, ht, spOverhead,
    if_neg (not_not_intro hsize), hch]

/-- The errors of PARSE on the payload come last (43_deframer.md R178). -/
theorem decodeFields_of_parse_err {entry : ChEntry} {e : ErrName} {d0 d1 : Half} (h5 : buf[5]? = some c)
    (hsize : sizeOfSzf (c.extractLsb' 2 2) = buf.length - 11)
    (hch : channel cfg (c.extractLsb' 4 4).toNat = some entry)
    (hparse : parse params ((buf.drop 7).take (buf.length - 11)) (c.extractLsb' 0 2) = .err e d0 d1) :
    decodeFields params cfg buf = .err e d0 d1 := by
  obtain ⟨t, ht⟩ := dataTypeOf_params (c.extractLsb' 0 2)
  simp only [decodeFields, byteAt_of_getElem? h5, cfg1Dtf_params, cfg1Szf_params, cfg1Mtf_params, ht, spOverhead,
    hsize, ne_eq, not_true_eq_false, if_false, hch, slice_add, hparse]

/-- FLOAT of 1 or 2 bytes has no parser (43_deframer.md R178). -/
theorem decodeFields_of_short_float {entry : ChEntry} (hbig : 11 < buf.length) (h5 : buf[5]? = some c)
    (hsize : sizeOfSzf (c.extractLsb' 2 2) = buf.length - 11)
    (hch : channel cfg (c.extractLsb' 4 4).toNat = some entry) (hfloat : c.extractLsb' 0 2 = 2)
    (hshort : buf.length - 11 ∈ [1, 2]) :
    decodeFields params cfg buf = .err .noParserForCombination (half (buf.length - 11)) 2 := by
  refine decodeFields_of_parse_err h5 hsize hch (parse_of_kindOf_err ?_)
  rw [payload_length hbig, hfloat]
  exact kindOf_short_float hshort

/-- What the checks on the cfg1 byte can fail with; a data type code of no type is not among it (43_deframer.md
R176). -/
theorem decodeFields_err_cases {e : ErrName} {d0 d1 : Half} (h : decodeFields params cfg buf = .err e d0 d1) :
    e ∈ [.invalidDataLengthBits, .invalidMsgTypeBits, .unsupportedSize, .noParserForCombination] := by
  obtain ⟨t, ht⟩ := dataTypeOf_params (cfg1Dtf params.layout (byteAt buf 5))
  simp only [decodeFields, ht] at h
  split at h
  · cases h; decide
  split at h
  · cases h; decide
  split at h
  next hparse =>
    cases h
    exact List.mem_cons_of_mem _ (List.mem_cons_of_mem _ (kindOf_err_cases (kindOf_of_parse_err hparse)))
  · cases h

/-- DEC never reports a data type code of no type: with DT_CODE as taken every code is one (43_deframer.md
R176). -/
theorem decodeSp_ne_invalidDataTypeBits (d0 d1 : Half) :
    decodeSp params cfg buf ≠ .err .invalidDataTypeBits d0 d1 := by
  intro h
  by_cases hbig : 11 < buf.length
  · rw [decodeSp_eq_checkedFrame hbig] at h
    rcases checkedFrame_err_cases h with hheader | hfields
    · exact absurd hheader (by decide)
    · exact absurd (decodeFields_err_cases hfields) (by decide)
  · rw [decodeSp_of_small (not_lt.mp hbig)] at h
    cases h

/-- A frame that passes the header checks is decided by its fields. -/
theorem decodeSp_eq_decodeFields (hbig : 11 < buf.length) (hlen : lengthByteOk buf) (hver : versionOk cfg buf)
    (hcrc : crcOk params buf) : decodeSp params cfg buf = decodeFields params cfg buf := by
  rw [decodeSp_eq_checkedFrame hbig, checkedFrame_of_ok hlen hver hcrc (by omega)]

end

/-- DEC's response is an error only where `decodeSp` answers it. -/
theorem decodeSp_of_dec_err {buf : Buffer} {s t : State} {e : ErrName} {d0 d1 : Half}
    (h : exec (.dec buf) s = .next t) (herr : t.response = some (.err e d0 d1)) :
    decodeSp params s.cfg buf = .err e d0 d1 := by
  cases hdec : decodeSp params s.cfg buf with
  | ok m =>
    cases (answers_dec s hdec).symm.trans h
    cases herr
  | err e' d0' d1' =>
    cases (answers_dec s hdec).symm.trans h
    cases herr
    rfl

/-- Settles O25: one lemma per check; a length of no single packet leaves a payload of no legal size, which no
size field states. -/
theorem decCfg1ChecksInOrder : Obligations.DecCfg1ChecksInOrder := by
  refine ⟨fun buf s c hbig hlen hver hcrc h5 => ?_, fun buf s t d0 d1 h herr =>
    decodeSp_ne_invalidDataTypeBits d0 d1 (decodeSp_of_dec_err h herr)⟩
  have hdec := decodeSp_eq_decodeFields hbig hlen hver hcrc
  have hsizeErr (hsize : sizeOfSzf (c.extractLsb' 2 2) ≠ buf.length - 11) :=
    answers_dec s (hdec.trans (decodeFields_of_size_ne h5 hsize))
  refine ⟨hsizeErr, fun hodd => hsizeErr fun hsize => hodd ?_, fun hsize =>
    ⟨fun hch => ?_, fun hch hfloat hshort => ?_⟩⟩
  · have hlegal := hsize ▸ sizeOfSzf_mem (c.extractLsb' 2 2)
    simp only [List.mem_cons, List.not_mem_nil, or_false] at hlegal ⊢
    omega
  · exact answers_dec s (hdec.trans (decodeFields_of_noChannel h5 hsize hch))
  · obtain ⟨entry, hentry⟩ := Option.isSome_iff_exists.mp hch
    exact answers_dec s (hdec.trans (decodeFields_of_short_float hbig h5 hsize hentry hfloat hshort))

/-! ### The message -/

/-- The message of a frame whose cfg1 byte passes, from the bytes of the wire (43_deframer.md R175, R177,
R178). -/
theorem decodeFields_eq_spMessage {cfg : Cfg} {buf : Buffer} {entry : ChEntry} {k : Kind} {v : Val}
    {q0 q1 c c2 : Byte} (hbig : 11 < buf.length) (h3 : buf[3]? = some q0) (h4 : buf[4]? = some q1)
    (h5 : buf[5]? = some c) (h6 : buf[6]? = some c2) (hsize : sizeOfSzf (c.extractLsb' 2 2) = buf.length - 11)
    (hch : channel cfg (c.extractLsb' 4 4).toNat = some entry)
    (hparse : parse params ((buf.drop 7).take (buf.length - 11)) (c.extractLsb' 0 2) = .ok (k, v)) :
    decodeFields params cfg buf = .ok (spMessage (q1 ++ q0) (c.extractLsb' 4 4) (c.extractLsb' 0 2) k c2
      ((buf.drop 7).take (buf.length - 11)) v entry) := by
  rw [decodeFields_ok_iff, byteAt_of_getElem? h5, cfg1Dtf_params, cfg1Szf_params, cfg1Mtf_params, hsize, slice_add,
    byteAt_of_getElem? h6, memRead_two_eq_append h3 h4]
  refine ⟨entry, k, v, rfl, hch, hparse, dataTypeOf_params _, ?_⟩
  rw [spMessage, payload_length hbig]

/-- Settles O26: the payload has the length the kind was asked for, so PARSE answers that kind. -/
theorem decReportsTheWireFields : Obligations.DecReportsTheWireFields := by
  intro buf s entry k q0 q1 c c2 hbig hlen hver hcrc h3 h4 h5 h6 hsize hch hkind
  rw [← payload_length hbig] at hkind
  have hparse := parse_ok_iff.mpr ⟨hkind, rfl⟩
  exact ⟨_, _, rfl, hparse, answers_dec s ((decodeSp_eq_decodeFields hbig hlen hver hcrc).trans
    (decodeFields_eq_spMessage hbig h3 h4 h5 h6 hsize hch hparse))⟩

end Sys2Proof.Proofs
end

section
/-! FS.DEC (43_deframer.md R180 to R186): the header checks, one message per configured channel. -/

namespace Sys2Proof.Proofs

open Machine Laws Safety

/-- FS.DEC answers what `decodeFs` does (43_deframer.md R180). -/
theorem answers_fsDec {buf : Buffer} {r : Result (List Msg)} (s : State) (h : decodeFs params s.cfg buf = r) :
    answers (.fsDec buf) s (Result.map (fun ms => .decoded (.sequence ms)) r) := by
  subst h
  rfl

section

variable {p : Params} {cfg : Cfg} {buf : Buffer}

/-- The length is checked first, against the number of configured channels (43_deframer.md R181). -/
theorem decodeFs_of_length_ne (h : buf.length ≠ 7 + 4 * Cfg.fsK cfg) :
    decodeFs p cfg buf = .err .invalidPacketSize (half buf.length) (half (7 + 4 * Cfg.fsK cfg)) :=
  if_pos h

/-- A frame of the right length goes to the header checks. -/
theorem decodeFs_eq_checkedFrame (h : buf.length = 7 + 4 * Cfg.fsK cfg) :
    decodeFs p cfg buf = checkedFrame p cfg buf (.ok (fsMessages p buf 3 cfg.fsCh)) :=
  if_neg (not_not_intro h)

end

/-- Settles O29: the length, then the header checks DEC makes too, in their order. -/
theorem fsDecChecksInOrder : Obligations.FsDecChecksInOrder := by
  intro buf s
  refine ⟨fun hne => answers_fsDec s (decodeFs_of_length_ne hne), fun heq b0 b1 b2 lo hi h0 h1 h2 hlo hhi => ?_⟩
  have hdec := decodeFs_eq_checkedFrame (p := params) heq
  refine ⟨fun hlen => answers_fsDec s (hdec.trans (checkedFrame_of_length_ne h2 hlen)), fun hlen =>
    ⟨fun hver => answers_fsDec s (hdec.trans (checkedFrame_of_version_ne h0 h1 h2 hlen hver)), fun hver hcrc => ?_⟩⟩
  exact answers_fsDec s (hdec.trans (checkedFrame_of_crc_ne h0 h1 h2 hlen hver (by omega) hlo hhi hcrc))

/-- The message of one field is its four bytes, their pattern, and ROUND2 of the pattern (43_deframer.md R185). -/
theorem fsMessage_params (buf : Buffer) (off : Nat) (tag : Byte) :
    fsMessage params buf off tag = {
      seq := 0, mt := tag, dt := 2, size := 4, kind := .f32, cfg2 := 0, raw := (buf.drop off).take 4,
      val := (memRead buf off 4).setWidth 64, rval := some (Config.round2 (memRead buf off 4)), entry := none } := by
  have hpat : (memRead buf off 4).setWidth 32 = memRead buf off 4 := BitVec.setWidth_eq _
  rw [fsMessage, hpat, fsField, slice_add]
  rfl

/-- A frame that passes every check is answered with its messages (43_deframer.md R185). -/
theorem decodeFs_of_ok {p : Params} {cfg : Cfg} {buf : Buffer} (hsize : buf.length = 7 + 4 * Cfg.fsK cfg)
    (hlen : lengthByteOk buf) (hver : versionOk cfg buf) (hcrc : crcOk p buf) :
    decodeFs p cfg buf = .ok (fsMessages p buf 3 cfg.fsCh) := by
  rw [decodeFs_eq_checkedFrame hsize, checkedFrame_of_ok hlen hver hcrc (by omega)]

/-- Settles O30: the messages are those of `fsMessages`, and the field of each configured channel lies inside the
frame. -/
theorem fsDecReportsEveryField : Obligations.FsDecReportsEveryField := by
  intro buf s hsize hlen hver hcrc
  refine ⟨_, answers_fsDec s (decodeFs_of_ok hsize hlen hver hcrc), fsMessages_length .., fun i tag htag => ?_⟩
  have hi : i < Cfg.fsK s.cfg := (List.getElem?_eq_some_iff.mp htag).1
  have hinside : 3 + 4 * i + 4 ≤ buf.length := by omega
  refine ⟨_, memRead buf (3 + 4 * i) 4, rfl, ?_, ?_, ?_⟩
  · rw [List.length_take, List.length_drop]
    omega
  · rw [← slice_add]
    exact memRead_toNat hinside
  · rw [fsMessages_getElem?, htag, Option.map_some, fsMessage_params]

end Sys2Proof.Proofs
end

section
/-! RX.BYTE and RX.FLUSH (43_deframer.md R191 to R194). -/

namespace Sys2Proof.Proofs

open Machine Laws

/-- The bytes held and the new one end a frame when they end with the terminator (43_deframer.md R191). -/
theorem endsFrame_append_iff {rxb : Buffer} {b : Byte} :
    endsFrame (rxb ++ [b]) = true ↔ ∃ init, rxb ++ [b] = init ++ [0x0D, 0x0A] := by
  rw [endsFrame_append, Bool.and_eq_true, beq_iff_eq, beq_iff_eq, List.getLast?_eq_some_iff]
  constructor
  · rintro ⟨⟨init, rfl⟩, rfl⟩
    exact ⟨init, List.append_assoc ..⟩
  · rintro ⟨init, h⟩
    have hsplit : rxb ++ [b] = (init ++ [term0]) ++ [term1] := h.trans (List.append_assoc init [term0] [term1]).symm
    obtain ⟨hrxb, hb⟩ := List.append_inj' hsplit rfl
    exact ⟨⟨init, hrxb⟩, List.singleton_inj.mp hb⟩

/-- RX.BYTE writes the splitter and the response, as `splitterPush` says (43_deframer.md R191). -/
theorem exec_rxByte {b : Byte} {s : State} {rxb : Buffer} {r : Response}
    (h : splitterPush params s.cfg s.rxb b = (rxb, r)) :
    exec (.rxByte b) s = .next { s with rxb := rxb, response := some r } := by
  have hexec : exec (.rxByte b) s = .next { s with
      rxb := (splitterPush params s.cfg s.rxb b).1, response := some (splitterPush params s.cfg s.rxb b).2 } := rfl
  rw [hexec, h]

theorem decodeFrame_sp {p : Params} {cfg : Cfg} (h : cfg.mode = .sp) (buf : Buffer) :
    decodeFrame p cfg buf = Result.map .single (decodeSp p cfg buf) := by
  rw [decodeFrame, h]

theorem decodeFrame_fs {p : Params} {cfg : Cfg} (h : cfg.mode = .fs) (buf : Buffer) :
    decodeFrame p cfg buf = Result.map .sequence (decodeFs p cfg buf) := by
  rw [decodeFrame, h]

/-- Settles O32: overflow, a frame cut for the decoder of the mode, or a byte kept, each by its law of the
splitter. -/
theorem rxByteCutsAtTheTerminator : Obligations.RxByteCutsAtTheTerminator := by
  intro b s
  refine ⟨fun hfull => exec_rxByte (splitterPush_full hfull), fun hroom => ⟨fun hend => ?_, fun hopen => ?_⟩⟩
  · have hpush := splitterPush_frame (p := params) (cfg := s.cfg) hroom (endsFrame_append_iff.mpr hend)
    refine ⟨fun hmode => ?_, fun hmode => ?_⟩
    · rw [exec_rxByte hpush, decodeFrame_sp hmode]
    · rw [exec_rxByte hpush, decodeFrame_fs hmode]
  · rw [← endsFrame_append_iff, Bool.not_eq_true] at hopen
    exact exec_rxByte (splitterPush_append hroom hopen)

/-- Settles O33: `execRxFlush` writes the empty splitter and the response alone. -/
theorem rxFlushEmpties : Obligations.RxFlushEmpties :=
  fun _ => rfl

end Sys2Proof.Proofs
end

section
/-! The codes and classes of the errors, and the words of a response (60_exceptions.md R211 to R213). -/

namespace Sys2Proof.Proofs

open Machine

@[simp] theorem status_ok (v : Payload) : status (.ok v) = 0 := rfl
@[simp] theorem detail0_ok (v : Payload) : detail0 (.ok v) = 0 := rfl
@[simp] theorem detail1_ok (v : Payload) : detail1 (.ok v) = 0 := rfl

@[simp] theorem status_err (e : ErrName) (d0 d1 : Half) : status (.err e d0 d1) = errCode e := rfl
@[simp] theorem detail0_err (e : ErrName) (d0 d1 : Half) : detail0 (.err e d0 d1) = d0 := rfl
@[simp] theorem detail1_err (e : ErrName) (d0 d1 : Half) : detail1 (.err e d0 d1) = d1 := rfl

/-- The domain errors of R211's table; the others are format errors. -/
theorem errClass_eq_domain_iff (e : ErrName) : errClass e = .domain ↔
    e ∈ [.unsupportedSize, .noParserForCombination, .u16OutOfRange, .valueOutOfRange, .unknownMsgType,
      .msgTypeOverflow, .notImplemented, .illegalOp] := by
  cases e <;> decide

/-- Settles O41: the codes row by row, the classes error by error, and the words of each of the two responses. -/
theorem responseWords : Obligations.ResponseWords := by
  refine ⟨?codes, errClass_eq_domain_iff, ?success, ?failure⟩
  case codes => decide
  case success => exact fun v => ⟨status_ok v, detail0_ok v, detail1_ok v⟩
  case failure => exact fun e d0 d1 => ⟨status_err e d0 d1, detail0_err e d0 d1, detail1_err e d0 d1⟩

end Sys2Proof.Proofs
end

section
/-! Instructions and steps as a whole: every instruction answers, what it leaves unchanged, what a step does with
each reading of an item, runs of several instructions. -/

namespace Sys2Proof.Proofs

open Machine Laws Safety

/-! ### Instructions -/

/-- Every instruction has a next state (00_scope.md section 6). -/
theorem exec_total (i : Instr) (s : State) : ∃ t, exec i s = .next t := by
  cases i <;> exact ⟨_, rfl⟩

/-- Every instruction leaves a response. -/
theorem exec_response {i : Instr} {s t : State} (h : exec i s = .next t) : ∃ r, t.response = some r := by
  obtain ⟨r, ⟨-, rfl⟩ | ⟨b, -, rfl⟩ | ⟨b, -, rfl⟩ | ⟨-, rfl⟩ | rfl⟩ := exec_next_cases h
  all_goals exact ⟨r, rfl⟩

/-- No instruction writes the configuration (10_state.md R26). -/
theorem exec_cfg {i : Instr} {s t : State} (h : exec i s = .next t) : t.cfg = s.cfg := by
  obtain ⟨r, ⟨-, rfl⟩ | ⟨b, -, rfl⟩ | ⟨b, -, rfl⟩ | ⟨-, rfl⟩ | rfl⟩ := exec_next_cases h
  all_goals rfl

/-- No instruction takes or adds a pending item. -/
theorem exec_pending {i : Instr} {s t : State} (h : exec i s = .next t) : t.pending = s.pending := by
  obtain ⟨r, ⟨-, rfl⟩ | ⟨b, -, rfl⟩ | ⟨b, -, rfl⟩ | ⟨-, rfl⟩ | rfl⟩ := exec_next_cases h
  all_goals rfl

/-- An instruction that only responds answers what its response is known to be. -/
theorem answers_of_exec {i : Instr} {s : State} {r r' : Response} (hi : exec i s = .next (respond s r))
    (hr : r = r') : answers i s r' := by
  subst hr
  exact hi

/-- Settles O40: the response of the next state is a success or an error. -/
theorem everyOperationAnswers : Obligations.EveryOperationAnswers := by
  intro i s
  obtain ⟨t, ht⟩ := exec_total i s
  obtain ⟨r, hr⟩ := exec_response ht
  refine ⟨t, ht, ?_⟩
  cases r with
  | ok v => exact .inl ⟨v, hr⟩
  | err e d0 d1 => exact .inr ⟨e, d0, d1, hr⟩

/-- Settles O46: of the instructions that write a field, two write the splitter's. -/
theorem splitterWriters : Obligations.SplitterWriters := by
  intro i s t h hrxb
  obtain ⟨r, ⟨-, rfl⟩ | ⟨b, -, rfl⟩ | ⟨b, hi, -⟩ | ⟨hi, -⟩ | rfl⟩ := exec_next_cases h
  case inr.inr.inl => exact .inl ⟨b, hi⟩
  case inr.inr.inr.inl => exact .inr hi
  all_goals exact absurd rfl hrxb

/-! ### Operations without state (20_memory.md R56) -/

/-- An operation without state changes nothing but the response. -/
theorem answers_of_isPure {i : Instr} (hi : isPure i = true) (s : State) : ∃ r, answers i s r := by
  obtain ⟨t, ht⟩ := exec_total i s
  obtain ⟨r, ⟨rfl, -⟩ | ⟨b, rfl, -⟩ | ⟨b, rfl, -⟩ | ⟨rfl, -⟩ | rfl⟩ := exec_next_cases ht
  case inr.inr.inr.inr => exact ⟨r, ht⟩
  all_goals cases hi

/-- Its answer depends on the state through the configuration alone. -/
theorem answers_congr_cfg {i : Instr} (hi : isPure i = true) {s t : State} {r : Response} (hcfg : s.cfg = t.cfg)
    (h : answers i s r) : answers i t r := by
  obtain ⟨cfg, crc, rxb, pending, response⟩ := s
  obtain ⟨cfg', crc', rxb', pending', response'⟩ := t
  subst hcfg
  cases i
  case crcInit | crcUpd | crcFin | rxByte | rxFlush => cases hi
  all_goals
    cases h
    rfl

/-- Settles O45: one response, the same for every state of that configuration, so also for a repetition. -/
theorem pureOperationsReadConfigurationOnly : Obligations.PureOperationsReadConfigurationOnly := by
  intro i hi s t hcfg
  obtain ⟨r, hr⟩ := answers_of_isPure hi s
  exact ⟨r, hr, answers_congr_cfg hi hcfg hr, answers_congr_cfg hi (t := { s with response := some r }) rfl hr⟩

/-! ### Steps -/

section

variable {s : State} {item : Input} {rest : List Input}

theorem step_illegalOp {op : Byte} (h : s.pending = item :: rest) (hd : decodeInput item = .illegalOp op) :
    step s = .next (answerIllegalOp { s with pending := rest } op) := by
  simp [step, fetch_cons s item rest h, hd]

theorem step_reset (h : s.pending = item :: rest) (hd : decodeInput item = .reset) :
    step s = .next (resetInput { s with pending := rest }) := by
  simp [step, fetch_cons s item rest h, hd]

theorem step_bad {b : Reject} (h : s.pending = item :: rest) (hd : decodeInput item = .bad b) :
    step s = .refused (.malformed b) := by
  simp [step, fetch_cons s item rest h, hd]

theorem step_nil (h : s.pending = []) : step s = .next (idle s) := by
  simp [step, fetch_nil s h]

end

/-- A step has a next state, or its item is malformed and it is refused with that reason. -/
theorem step_next_or_refused (s : State) :
    (∃ t, step s = .next t) ∨
      ∃ item rest b, s.pending = item :: rest ∧ decodeInput item = .bad b ∧ step s = .refused (.malformed b) := by
  cases hp : s.pending with
  | nil => exact .inl ⟨_, step_nil hp⟩
  | cons item rest =>
    cases hd : decodeInput item with
    | instr i =>
      obtain ⟨t, ht⟩ := exec_total i { s with pending := rest }
      exact .inl ⟨t, (step_instr hp hd).trans ht⟩
    | illegalOp op => exact .inl ⟨_, step_illegalOp hp hd⟩
    | reset => exact .inl ⟨_, step_reset hp hd⟩
    | bad b => exact .inr ⟨item, rest, b, rfl, hd, step_bad hp hd⟩

/-- Settles O48. -/
theorem stepRunsTheDecodedInstruction : Obligations.StepRunsTheDecodedInstruction :=
  ⟨fun _ _ _ _ hp hd => step_instr hp hd, fun _ hp => step_nil hp⟩

/-- Settles O49: the reset input reads as reset, and leaves a booted state with the later items pending. -/
theorem resetLeavesTheSpecValues : Obligations.ResetLeavesTheSpecValues :=
  ⟨fun _ _ hp => step_reset hp rfl, fun _ => ⟨rfl, rfl, rfl, rfl⟩, rfl, rfl, rfl⟩

/-- A command code of no row is illegal, whatever follows it (30_encoding.md R83). -/
theorem decodeOp_illegal {op : Byte} (ops : Buffer)
    (h : op.toNat ∉ [0x10, 0x11, 0x12, 0x13, 0x20, 0x21, 0x22, 0x23, 0x24, 0x30, 0x31, 0x40, 0x41, 0x42, 0x43]) :
    decodeOp op ops = .illegalOp op := by
  unfold decodeOp
  split <;> simp at h ⊢

/-- Settles O47: the decoder reads an illegal command code, which the step answers. -/
theorem illegalOpIsAnswered : Obligations.IllegalOpIsAnswered :=
  fun _ _ ops _ hop hp => step_illegalOp hp (decodeOp_illegal ops hop)

/-- Settles O43: idling, answering and reset keep the configuration, and so does every instruction. -/
theorem configurationIsImmutable : Obligations.ConfigurationIsImmutable := by
  intro s t h
  obtain ⟨-, rfl⟩ | ⟨item, rest, -, ⟨i, -, hexec⟩ | ⟨op, -, rfl⟩ | ⟨-, rfl⟩⟩ := step_next_cases h
  case inr.inl => exact (exec_cfg hexec).trans rfl
  all_goals rfl

/-! ### Runs -/

theorem execAll_cons {i : Instr} {is : List Instr} {s t : State} (h : exec i s = .next t) :
    execAll (i :: is) s = execAll is t := by
  simp only [execAll, h]

/-- Instructions run one after the other are run in two parts. -/
theorem execAll_append {is js : List Instr} {s t : State} (h : execAll is s = .next t) :
    execAll (is ++ js) s = execAll js t := by
  induction is generalizing s with
  | nil => cases h; rfl
  | cons i is ih =>
    obtain ⟨u, hu⟩ := exec_total i s
    rw [execAll_cons hu] at h
    rw [List.cons_append, execAll_cons hu, ih h]

/-! ### Rows and words of the tables -/

section

variable {i : Instr} {s : State} {m : BitVec 4} {n : Nat}

/-- A row of the kind map whose data type has a kind of that size (30_encoding.md R80; 41_field.md R121). -/
theorem answers_kindMapRow {t : DataType} {k : Kind} (hi : exec i s = .next (respond s (kindMapRow params m n t)))
    (hn : legalSize n = true) (hk : kindFor params n t = some k) :
    answers i s (.ok (.cfg1 m (dtCode t) (BitVec.ofNat 4 n) k)) := by
  refine answers_of_exec hi ?_
  rw [kindMapRow, show params.dtCode t = dtCode t from rfl, kindOf_of_kindFor hn (dataTypeOf_dtCode t) hk]
  rfl

/-- The FLOAT rows of 1 and 2 bytes (30_encoding.md R80). -/
theorem answers_kindMapRow_short_float (hi : exec i s = .next (respond s (kindMapRow params m n .float)))
    (hn : n ∈ [1, 2]) : answers i s (.err .noParserForCombination (half n) 2) := by
  refine answers_of_exec hi ?_
  rw [kindMapRow, show params.dtCode .float = 2 from rfl, kindOf_short_float hn]
  rfl

end

/-- Settles O36: the rows in their order; each asks `kind_of` for the kind of its size and data type. -/
theorem kindMapRowsSelectKinds : Obligations.KindMapRowsSelectKinds :=
  fun _ _ => ⟨
    answers_kindMapRow (n := 1) (t := .int) rfl rfl rfl,
    answers_kindMapRow (n := 1) (t := .uint) rfl rfl rfl,
    answers_kindMapRow_short_float (n := 1) rfl (by decide),
    answers_kindMapRow (n := 1) (t := .command) rfl rfl rfl,
    answers_kindMapRow (n := 2) (t := .int) rfl rfl rfl,
    answers_kindMapRow (n := 2) (t := .uint) rfl rfl rfl,
    answers_kindMapRow_short_float (n := 2) rfl (by decide),
    answers_kindMapRow (n := 2) (t := .command) rfl rfl rfl,
    answers_kindMapRow (n := 4) (t := .int) rfl rfl rfl,
    answers_kindMapRow (n := 4) (t := .uint) rfl rfl rfl,
    answers_kindMapRow (n := 4) (t := .float) rfl rfl rfl,
    answers_kindMapRow (n := 4) (t := .command) rfl rfl rfl,
    answers_kindMapRow (n := 8) (t := .int) rfl rfl rfl,
    answers_kindMapRow (n := 8) (t := .uint) rfl rfl rfl,
    answers_kindMapRow (n := 8) (t := .float) rfl rfl rfl,
    answers_kindMapRow (n := 8) (t := .command) rfl rfl rfl⟩

/-- Settles O55: six closed evaluations of the decoder. -/
theorem writtenWordsDecode : Obligations.WrittenWordsDecode := by
  refine ⟨?_, ?_, ?_, ?_, ?_, ?_⟩ <;> decide

end Sys2Proof.Proofs
end

section
/-! Reads and writes of a buffer (00_scope.md R11, R12; 20_memory.md R50): a run of bytes, its number, the bytes of
the number. -/

namespace Sys2Proof.Proofs

open Machine Laws

/-! ### Runs of bytes -/

/-- The `j`-th byte of a run is the byte read at that offset. -/
theorem bytesAt_getElem? {n j : Nat} (buf : Buffer) (off : Nat) (hj : j < n) :
    (bytesAt buf off n)[j]? = some (byteAt buf (off + j)) := by
  induction n generalizing off j with
  | zero => omega
  | succ n ih =>
    cases j with
    | zero => rfl
    | succ j => rw [bytesAt, List.getElem?_cons_succ, ih _ (by omega), Nat.add_assoc, Nat.add_comm 1 j]

/-- A run of bytes cut in two. -/
theorem bytesAt_add (buf : Buffer) (off m n : Nat) :
    bytesAt buf off (m + n) = bytesAt buf off m ++ bytesAt buf (off + m) n := by
  induction m generalizing off with
  | zero => simp [bytesAt]
  | succ m ih => rw [Nat.succ_add, bytesAt, ih, bytesAt, List.cons_append, Nat.add_assoc, Nat.add_comm 1 m]

/-- The run of all bytes is the buffer. -/
theorem bytesAt_whole (buf : Buffer) : bytesAt buf 0 buf.length = buf := by
  rw [bytesAt_eq_slice (by omega)]
  simp [slice]

/-- The run over the middle of a buffer is that middle. -/
theorem bytesAt_middle {buf a b c : Buffer} {off n : Nat} (h : buf = a ++ (b ++ c)) (ha : a.length = off)
    (hb : b.length = n) : bytesAt buf off n = b := by
  subst h ha hb
  rw [bytesAt_eq_slice (by simp), slice, Nat.add_sub_cancel_left, List.drop_left, List.take_left]

/-! ### Numbers -/

/-- Reading bytes and writing their number little-endian gives the bytes (20_memory.md R50). -/
theorem leBytes_memRead (buf : Buffer) (off n : Nat) :
    leBytes n (memRead buf off n).toNat = bytesAt buf off n := by
  have hlt := leNat_lt (bytesAt buf off n)
  have hback := leBytes_leNat (bytesAt buf off n)
  rw [bytesAt_length] at hlt hback
  rwa [memRead, BitVec.toNat_ofNat, Nat.mod_eq_of_lt (pow_256 n ▸ hlt)]

/-- Where the little-endian bytes of a word stand, the word is read. -/
theorem memRead_eq_of_bytesAt {buf : Buffer} {off n : Nat} {v : BitVec (8 * n)}
    (h : bytesAt buf off n = leBytes n v.toNat) : memRead buf off n = v := by
  apply BitVec.eq_of_toNat_eq
  rw [memRead, h, leNat_leBytes, pow_256, Nat.mod_eq_of_lt v.isLt, BitVec.toNat_ofNat, Nat.mod_eq_of_lt v.isLt]

/-- A read of one byte is that byte. -/
theorem memRead_one (buf : Buffer) (off : Nat) : (memRead buf off 1).setWidth 8 = byteAt buf off := by
  have h : memRead buf off 1 = byteAt buf off := memRead_eq_of_bytesAt (by simp [bytesAt, leBytes])
  rw [h, BitVec.setWidth_eq]

/-- Byte `j` of a wide read is the byte read there (20_memory.md section 1). -/
theorem memRead_extractLsb' {n j : Nat} (buf : Buffer) (off : Nat) (hj : j < n) :
    (memRead buf off n).extractLsb' (8 * j) 8 = byteAt buf (off + j) := by
  have hbyte := leBytes_getElem?_eq_extractLsb' (memRead buf off n) hj
  rw [leBytes_memRead, bytesAt_getElem? buf off hj] at hbyte
  exact (Option.some.inj hbyte).symm

section

variable {buf : Buffer} {off n : Nat} (v : BitVec (8 * n))

/-- What was written is what is read (00_scope.md R12). -/
theorem memRead_memWrite (h : off + n ≤ buf.length) : memRead (memWrite buf off n v) off n = v :=
  memRead_eq_of_bytesAt
    (bytesAt_middle (List.append_assoc _ _ _) (by simp; omega) (leBytes_length _ _))

/-- A write keeps the length (00_scope.md R12). -/
theorem memWrite_length (h : off + n ≤ buf.length) : (memWrite buf off n v).length = buf.length := by
  simp [memWrite]
  omega

/-- A write leaves every byte outside its place alone (00_scope.md section 6). -/
theorem memWrite_getElem?_outside {i : Nat} (h : off + n ≤ buf.length) (hi : i < off ∨ off + n ≤ i) :
    (memWrite buf off n v)[i]? = buf[i]? := by
  have hoff : (buf.take off).length = off := by simp; omega
  rw [memWrite, List.append_assoc]
  rcases hi with hlt | hge
  · rw [List.getElem?_append_left (by omega), List.getElem?_take_of_lt hlt]
  · rw [List.getElem?_append_right (by omega), List.getElem?_append_right (by simp; omega), List.getElem?_drop,
      hoff, leBytes_length]
    congr 1
    omega

end

/-- Settles O18: a byte of a wide read by the little-endian bytes of the number, a read after a write by the
middle of the written buffer. -/
theorem wideReadsAreLittleEndian : Obligations.WideReadsAreLittleEndian := by
  refine ⟨fun buf off n j _ hj => ?_, fun buf off n v h =>
    ⟨memRead_memWrite v h, memWrite_length v h, fun i hi => memWrite_getElem?_outside v h hi⟩⟩
  rw [memRead_one, memRead_extractLsb' buf off hj]

end Sys2Proof.Proofs
end

section
/-! The field unit both ways (41_field.md section 2), and the number PARSE's answer stands for (R123, R124). -/

namespace Sys2Proof.Proofs

open Machine Laws

/-! ### A pattern and its VAL form -/

/-- The low part of the VAL form is the pattern. -/
theorem setWidth_valForm (k : Kind) {n : Nat} (hn : n ≤ 8) (x : BitVec (8 * n)) :
    (valForm k x).setWidth (8 * n) = x := by
  cases h : Kind.signed k with
  | false => rw [valForm_unsigned h, BitVec.setWidth_setWidth_of_le _ (by omega), BitVec.setWidth_eq]
  | true =>
    rw [valForm_signed h]
    refine BitVec.eq_of_getLsbD_eq fun i hi => ?_
    rw [BitVec.getLsbD_setWidth, BitVec.getLsbD_signExtend, if_pos hi, decide_eq_true hi,
      decide_eq_true (by omega : i < 64), Bool.true_and, Bool.true_and]

/-- The VAL form depends on the pattern's number and its width alone. -/
theorem valForm_congr (k : Kind) {m n : Nat} {x : BitVec (8 * m)} {y : BitVec (8 * n)} (hmn : m = n)
    (hxy : x.toNat = y.toNat) : valForm k x = valForm k y := by
  subst hmn
  rw [BitVec.eq_of_toNat_eq hxy]

/-- The number of the VAL form, for the kinds that are zero-extended. -/
theorem valForm_toNat_of_unsigned {k : Kind} (h : Kind.signed k = false) {n : Nat} (hn : n ≤ 8)
    (x : BitVec (8 * n)) : (valForm k x).toNat = x.toNat := by
  rw [valForm_unsigned h, BitVec.toNat_setWidth_of_le (by omega)]

/-- The number of the VAL form, for the kinds that are sign-extended. -/
theorem valForm_toInt_of_signed {k : Kind} (h : Kind.signed k = true) {n : Nat} (hn : n ≤ 8) (x : BitVec (8 * n)) :
    (valForm k x).toInt = x.toInt := by
  rw [valForm_signed h, BitVec.toInt_signExtend_of_le (by omega)]

/-! ### Round trips -/

/-- A whole buffer that spells a word is read as that word. -/
theorem valForm_memRead_leBytes (k : Kind) {n : Nat} (x : BitVec (8 * n)) :
    valForm k (memRead (leBytes n x.toNat) 0 (leBytes n x.toNat).length) = valForm k x := by
  refine valForm_congr k (leBytes_length _ _) ?_
  rw [memRead_whole_toNat, leNat_leBytes, pow_256, Nat.mod_eq_of_lt x.isLt]

/-- PARSE of the little-endian bytes of a word answers its VAL form (41_field.md R126). -/
theorem parse_leBytes {p : Params} {dt : BitVec 2} {n : Nat} {k : Kind} (hk : kindOf p n dt = .ok k)
    (x : BitVec (8 * n)) : parse p (leBytes n x.toNat) dt = .ok (k, valForm k x) :=
  parse_ok_iff.mpr ⟨(leBytes_length n x.toNat).symm ▸ hk, (valForm_memRead_leBytes k x).symm⟩

/-- A kind's size fits VAL. -/
theorem kindOf_size_le {p : Params} {n : Nat} {dt : BitVec 2} {k : Kind} (h : kindOf p n dt = .ok k) : n ≤ 8 :=
  (kindOf_ok h).2.1 ▸ (kindBytes_bounds k).2

/-- The VAL form of a pattern of the kind's size fits (41_field.md R125). -/
theorem fits_valForm {p : Params} {n : Nat} {dt : BitVec 2} {k : Kind} (h : kindOf p n dt = .ok k)
    (x : BitVec (8 * n)) : fits k (valForm k x) = true := by
  obtain ⟨-, rfl, -⟩ := kindOf_ok h
  exact (fits_iff_exists_valForm k _).mpr ⟨x, rfl⟩

/-- A value that fits is the VAL form of its own low part. -/
theorem eq_valForm_of_fits {p : Params} {n : Nat} {dt : BitVec 2} {k : Kind} {val : Val} (h : kindOf p n dt = .ok k)
    (hfits : fits k val = true) : valForm k (val.setWidth (8 * n)) = val := by
  have hn := kindOf_size_le h
  obtain ⟨-, rfl, -⟩ := kindOf_ok h
  obtain ⟨x, rfl⟩ := (fits_iff_exists_valForm k val).mp hfits
  rw [setWidth_valForm k hn]

/-- GENP of the VAL form of a buffer's pattern gives the buffer back. -/
theorem genPayload_valForm_memRead {p : Params} {buf : Buffer} {dt : BitVec 2} {k : Kind}
    (h : kindOf p buf.length dt = .ok k) :
    genPayload p dt buf.length (valForm k (memRead buf 0 buf.length)) = .ok buf := by
  refine genPayload_ok_iff.mpr ⟨k, h, fits_valForm h _, ?_⟩
  rw [setWidth_valForm k (kindOf_size_le h), leBytes_memRead, bytesAt_whole]

/-- Settles O15: what fits is the VAL form of its low part, which GENP writes and PARSE reads; the other way the
VAL form of the buffer's pattern has that pattern as its low part. -/
theorem fieldUnitRoundTrip : Obligations.FieldUnitRoundTrip := by
  intro p
  refine ⟨fun dt n k val hk hfits => ⟨_, genPayload_ok_iff.mpr ⟨k, hk, hfits, rfl⟩, ?_⟩, fun buf dt k hk =>
    ⟨_, parse_ok_iff.mpr ⟨hk, rfl⟩, fits_valForm hk _, genPayload_valForm_memRead hk⟩⟩
  rw [parse_leBytes hk, eq_valForm_of_fits hk hfits]

/-! ### The number a value stands for -/

/-- The pattern PARSE extends, from the buffer's number. -/
theorem memRead_whole_eq_ofNat (buf : Buffer) :
    memRead buf 0 buf.length = BitVec.ofNat (8 * buf.length) (leNat buf) := by
  rw [memRead, bytesAt_whole]

theorem num_unsigned {k : Kind} (hk : k ∈ [.u8, .u16, .u32, .u64]) (v : Val) : num k v = .int v.toNat := by
  obtain rfl | rfl | rfl | rfl : k = .u8 ∨ k = .u16 ∨ k = .u32 ∨ k = .u64 := by simpa using hk
  all_goals rfl

theorem num_signed {k : Kind} (hk : Kind.signed k = true) (v : Val) : num k v = .int v.toInt := by
  cases k
  case i8 | i16 | i32 | i64 => rfl
  all_goals cases hk

/-- The unsigned kinds are zero-extended. -/
theorem signed_eq_false_of_mem {k : Kind} (hk : k ∈ [.u8, .u16, .u32, .u64]) : Kind.signed k = false := by
  revert k
  decide

/-- The low part of a zero-extended pattern is the low part of the buffer's number. -/
theorem setWidth_valForm_memRead {k : Kind} {buf : Buffer} (hk : Kind.signed k = false) (hle : buf.length ≤ 8)
    (m : Nat) : (valForm k (memRead buf 0 buf.length)).setWidth m = BitVec.ofNat m (leNat buf) := by
  apply BitVec.eq_of_toNat_eq
  rw [BitVec.toNat_setWidth, valForm_toNat_of_unsigned hk hle, memRead_whole_toNat, BitVec.toNat_ofNat]

/-- Settles O19: the VAL form keeps the pattern's number, signed or unsigned, and its low part is the pattern. -/
theorem parsedNumberIsTwosComplement : Obligations.ParsedNumberIsTwosComplement := by
  intro p buf dt k v hparse
  obtain ⟨hkind, rfl⟩ := parse_ok_iff.mp hparse
  have hle := kindOf_size_le hkind
  refine ⟨fun hk => ?_, fun hk => ⟨?_, BitVec.le_toInt _, Int.le_sub_one_of_lt (BitVec.toInt_lt)⟩, ?_, ?_⟩
  · rw [num_unsigned hk, valForm_toNat_of_unsigned (signed_eq_false_of_mem hk) hle, memRead_whole_toNat]
  · rw [num_signed hk, valForm_toInt_of_signed hk hle, memRead_whole_eq_ofNat]
  · rintro rfl
    rw [num, setWidth_valForm_memRead rfl hle]
  · rintro rfl
    rw [num, ← setWidth_valForm_memRead (k := .f64) rfl hle, BitVec.setWidth_eq]

end Sys2Proof.Proofs
end

section
/-! The CRC as a linear shift register (40_crc.md sections 1 and 3): the table step is the bit-serial step, the
residue, single-bit errors, the streaming form. -/

namespace Sys2Proof.Proofs

open Machine Laws Safety

/-! ### The bit-serial form -/

/-- A turn of the table loop is linear over exclusive-or. -/
theorem crcShift_xor (x y : Half) : crcShift (x ^^^ y) = crcShift x ^^^ crcShift y := by
  have hcancel (a b : Half) : a ^^^ crcPolyR ^^^ (b ^^^ crcPolyR) = a ^^^ b := by
    rw [show a ^^^ crcPolyR ^^^ (b ^^^ crcPolyR) = a ^^^ b ^^^ (crcPolyR ^^^ crcPolyR) by ac_rfl, BitVec.xor_self,
      BitVec.xor_zero]
  unfold crcShift
  rw [BitVec.getLsbD_xor, BitVec.ushiftRight_xor_distrib]
  cases x.getLsbD 0 <;> cases y.getLsbD 0 <;> simp [hcancel] <;> ac_rfl

theorem crcShifts_xor (n : Nat) (x y : Half) : crcShifts n (x ^^^ y) = crcShifts n x ^^^ crcShifts n y := by
  induction n generalizing x y with
  | zero => rfl
  | succ n ih => rw [crcShifts_succ, crcShift_xor, ih, crcShifts_succ, crcShifts_succ]

/-- While zeros are shifted out, the loop only shifts. -/
theorem crcShifts_of_low_zero {n : Nat} {x : Half} (h : ∀ i < n, x.getLsbD i = false) :
    crcShifts n x = x >>> n := by
  induction n generalizing x with
  | zero => simp
  | succ n ih =>
    have hshift : crcShift x = x >>> 1 := by
      rw [crcShift, h 0 (by omega)]
      rfl
    rw [crcShifts_succ, hshift, ih fun i hi => by simpa using h (1 + i) (by omega), ← BitVec.shiftRight_add,
      Nat.add_comm 1 n]

/-- A word is its high byte in place and its low byte. -/
theorem half_eq_high_xor_low (x : Half) : x = (x >>> 8) <<< 8 ^^^ (x.setWidth 8).setWidth 16 := by
  refine BitVec.eq_of_getLsbD_eq fun i hi => ?_
  by_cases h8 : i < 8
  · simp [h8, hi]
  · simp [h8, hi, show 8 + (i - 8) = i by omega]

/-- Eight turns shift the high byte down and look the low byte up. -/
theorem crcShifts_eight (x : Half) : crcShifts 8 x = x >>> 8 ^^^ params.table (x.setWidth 8) := by
  have hhigh : crcShifts 8 ((x >>> 8) <<< 8) = x >>> 8 := by
    rw [crcShifts_of_low_zero fun i hi => by simp [hi]]
    refine BitVec.eq_of_getLsbD_eq fun i hi => ?_
    by_cases h8 : i < 8
    · simp [show 8 + i < 16 by omega]
    · have hout : x.getLsbD (8 + i) = false := BitVec.getLsbD_of_ge x (8 + i) (by omega)
      simp [hout]
  calc crcShifts 8 x
      = crcShifts 8 ((x >>> 8) <<< 8 ^^^ (x.setWidth 8).setWidth 16) := by rw [← half_eq_high_xor_low]
    _ = x >>> 8 ^^^ params.table (x.setWidth 8) := by rw [crcShifts_xor, hhigh, params_table]

/-- The high byte of the accumulator is not touched by the exclusive-or with a byte. -/
theorem xor_byte_ushiftRight (c : Half) (b : Byte) : (c ^^^ b.setWidth 16) >>> 8 = c >>> 8 := by
  refine BitVec.eq_of_getLsbD_eq fun i hi => ?_
  simp

/-- The table step is the bit-serial step (40_crc.md section 1). -/
theorem crcStep_eq_crcBitSerial (c : Half) (b : Byte) : crcStep params c b = crcBitSerial c b := by
  rw [crcBitSerial, crcShifts_eight, xor_byte_ushiftRight, crcStep]

/-- Settles O2: the loop is linear, so the high byte is shifted and the low byte looked up apart. -/
theorem crcStepEqualsBitSerial : Obligations.CrcStepEqualsBitSerial :=
  fun c b => ⟨crcStep_eq c b, crcStep_eq_crcBitSerial c b⟩

/-! ### Streaming -/

/-- The accumulator after one byte and then a buffer. -/
@[simp] theorem crcRun_cons (p : Params) (c : Half) (b : Byte) (buf : Buffer) :
    crcRun p c (b :: buf) = crcRun p (crcStep p c b) buf := rfl

@[simp] theorem crcRun_append (p : Params) (c : Half) (a b : Buffer) :
    crcRun p c (a ++ b) = crcRun p (crcRun p c a) b :=
  List.foldl_append

/-- CRC.UPD over a buffer, one byte at a time, leaves the accumulator's run; each answers `done`. -/
theorem execAll_crcUpd (buf : Buffer) (s : State) (h : s.response = some (.ok .done)) :
    execAll (buf.map Instr.crcUpd) s = .next { s with crc := crcRun params s.crc buf } := by
  induction buf generalizing s with
  | nil => rfl
  | cons b bs ih =>
    rw [List.map_cons, execAll_cons (exec_crcUpd b s), ih _ rfl, respond, h]
    rfl

/-- Settles O7: the accumulator runs over the buffer from the seed, and CRC.FIN answers its complement. -/
theorem streamingCrcEqualsCrc16 : Obligations.StreamingCrcEqualsCrc16 := by
  intro buf s
  refine ⟨?_, answers_crc16 buf s⟩
  rw [execAll_cons (exec_crcInit s), execAll_append (execAll_crcUpd buf _ rfl), execAll_cons (answers_crcFin _),
    crc16_eq_not_crcRun]
  rfl

/-! ### The residue (40_crc.md section 3, item (3)) -/

/-- The two bytes of a word, low byte first. -/
theorem leBytes_two (x : Half) : leBytes 2 x.toNat = [x.extractLsb' 0 8, x.extractLsb' 8 8] :=
  leBytes_setWidth_eq_map x 2

/-- A byte meets its complement. -/
theorem xor_xor_not (x m : Byte) : x ^^^ m ^^^ ~~~x = ~~~m := by
  ext i hi
  simp only [BitVec.getElem_xor, BitVec.getElem_not]
  cases x[i] <;> simp

/-- A byte of the complement is the complement of the byte. -/
theorem extractLsb'_not_byte {off : Nat} (c : Half) (h : off + 8 ≤ 16) :
    (~~~c).extractLsb' off 8 = ~~~(c.extractLsb' off 8) := by
  ext i hi
  simp [show off + i < 16 by omega]

/-- Whatever the accumulator holds, the two bytes of its complement take it to the residue: each meets its own
complement, so that the table is looked up at constant places. -/
theorem crcRun_complement (c : Half) : crcRun params c (leBytes 2 (~~~c).toNat) = 0xF0B8 := by
  have hlow : (c ^^^ ((~~~c).extractLsb' 0 8).setWidth 16).setWidth 8 = 0xFF#8 := by
    rw [extractLsb'_not_byte c (by decide), BitVec.setWidth_xor, BitVec.setWidth_setWidth_of_le _ (by decide),
      BitVec.setWidth_eq, BitVec.setWidth_eq_extractLsb' (by decide)]
    simpa using xor_xor_not (c.extractLsb' 0 8) 0
  have hfirst : crcStep params c ((~~~c).extractLsb' 0 8) = c >>> 8 ^^^ 0x0F78 := by
    rw [crcStep, hlow, show params.table 0xFF#8 = 0x0F78 by decide]
  have hnext : (c >>> 8 ^^^ 0x0F78 ^^^ ((~~~c).extractLsb' 8 8).setWidth 16).setWidth 8 = 0x87#8 := by
    rw [extractLsb'_not_byte c (by decide), BitVec.setWidth_xor, BitVec.setWidth_xor,
      BitVec.setWidth_setWidth_of_le _ (by decide), BitVec.setWidth_eq, BitVec.setWidth_ushiftRight_eq_extractLsb]
    exact xor_xor_not (c.extractLsb' 8 8) 0x78
  have hhigh : (c >>> 8 ^^^ 0x0F78) >>> 8 = 0x0F#16 := by
    rw [BitVec.ushiftRight_xor_distrib, ← BitVec.shiftRight_add, BitVec.ushiftRight_eq_zero (by decide)]
    decide
  rw [leBytes_two, crcRun_cons, hfirst, crcRun_cons, crcStep, hnext, hhigh]
  decide

/-- Settles O8: CRC16 is the complement of the accumulator after the buffer. -/
theorem crcResidueIsConstant : Obligations.CrcResidueIsConstant := by
  intro buf
  have hresidue : crcRun params 0xFFFF (buf ++ leBytes 2 (crc16 params buf).toNat) = 0xF0B8 := by
    rw [crcRun_append, crc16_eq_not_crcRun, crcRun_complement]
  refine ⟨hresidue, fun s hs => ?_⟩
  have hfin := answers_crcFin s
  rwa [hs, hresidue] at hfin

/-! ### Single-bit errors (40_crc.md section 3, item (4)) -/

/-- The top bit of a turn's result is the bit that was shifted out. -/
theorem crcShift_msb (c : Half) : (crcShift c).getLsbD 15 = c.getLsbD 0 := by
  unfold crcShift
  cases c.getLsbD 0 <;> simp [crcPolyR]

/-- A turn of the table loop loses nothing. -/
theorem crcShift_injective : Function.Injective crcShift := by
  intro x y h
  have hbit : x.getLsbD 0 = y.getLsbD 0 := by rw [← crcShift_msb, h, crcShift_msb]
  have hrest : x >>> 1 = y >>> 1 := by
    unfold crcShift at h
    rw [← hbit] at h
    split at h
    · exact (BitVec.xor_left_inj _).mp h
    · exact h
  refine BitVec.eq_of_getLsbD_eq fun i _ => ?_
  cases i with
  | zero => exact hbit
  | succ i => simpa [Nat.add_comm 1 i] using congrArg (BitVec.getLsbD · i) hrest

theorem crcShifts_injective (n : Nat) : Function.Injective (crcShifts n) := by
  induction n with
  | zero => exact Function.injective_id
  | succ n ih => exact ih.comp crcShift_injective

/-- The step keeps different accumulators apart. -/
theorem crcStep_injective (b : Byte) : Function.Injective (crcStep params · b) := by
  intro c d h
  simp only [crcStep_eq_crcBitSerial, crcBitSerial] at h
  exact (BitVec.xor_left_inj _).mp (crcShifts_injective 8 h)

/-- The step keeps different bytes apart. -/
theorem crcStep_byte_injective (c : Half) : Function.Injective (crcStep params c) := by
  intro b d h
  simp only [crcStep_eq_crcBitSerial, crcBitSerial] at h
  have hwide := (BitVec.xor_right_inj _).mp (crcShifts_injective 8 h)
  simpa using congrArg (BitVec.setWidth 8) hwide

theorem crcRun_injective (buf : Buffer) : Function.Injective (crcRun params · buf) := by
  induction buf with
  | nil => exact Function.injective_id
  | cons b bs ih => exact ih.comp (crcStep_injective b)

/-- Buffers that differ in one byte have different CRCs. -/
theorem crc16_ne_of_one_byte (a c : Buffer) {x y : Byte} (h : x ≠ y) :
    crc16 params (a ++ x :: c) ≠ crc16 params (a ++ y :: c) := by
  intro heq
  rw [crc16_eq_not_crcRun, crc16_eq_not_crcRun, BitVec.not_inj, crcRun_append, crcRun_append] at heq
  exact h (crcStep_byte_injective _ (crcRun_injective c heq))

/-- A flipped bit changes its byte. -/
theorem xor_twoPow_ne {j : Nat} (b : Byte) (hj : j < 8) : b ^^^ BitVec.twoPow 8 j ≠ b := by
  intro h
  have hbit := congrArg (BitVec.getLsbD · j) h
  simp [hj] at hbit

/-- A flip inside the buffer replaces one byte. -/
theorem flipBit_eq_append {buf : Buffer} {i : Nat} (j : Nat) (hi : i < buf.length) :
    flipBit buf i j = buf.take i ++ (buf[i] ^^^ BitVec.twoPow 8 j) :: buf.drop (i + 1) := by
  rw [flipBit, List.modify_eq_take_cons_drop hi]

/-- Settles O9: the CRC keeps buffers apart that differ in one byte. -/
theorem crcDetectsOneFlippedBit : Obligations.CrcDetectsOneFlippedBit := by
  intro buf i j hi hj
  have hsplit : buf = buf.take i ++ buf[i] :: buf.drop (i + 1) := by
    rw [List.cons_getElem_drop_succ, List.take_append_drop]
  rw [flipBit_eq_append j hi]
  conv_rhs => rw [hsplit]
  exact crc16_ne_of_one_byte _ _ (xor_twoPow_ne _ hj)

end Sys2Proof.Proofs
end

section
/-! The stream splitter over several bytes (20_memory.md section 6; 43_deframer.md R191) and the invariant of a
reachable state (10_state.md section 4). -/

namespace Sys2Proof.Proofs

open Machine Laws Safety

/-! ### The terminator -/

/-- A buffer grown by one byte has the terminator where it had it, or at its end. -/
theorem hasTerminator_concat (rxb : Buffer) (b : Byte) :
    hasTerminator (rxb ++ [b]) = (hasTerminator rxb || endsFrame (rxb ++ [b])) := by
  rw [endsFrame_append]
  induction rxb with
  | nil => simp [hasTerminator]
  | cons a rest ih =>
    rw [List.cons_append, hasTerminator, ih, hasTerminator]
    cases rest with
    | nil => simp [hasTerminator]
    | cons c cs => simp [Bool.or_assoc]

/-- What RX.BYTE does to the splitter: overflow, a frame cut, or a byte kept (43_deframer.md R191, R192). -/
theorem splitterPush_cases (p : Params) (cfg : Cfg) (rxb : Buffer) (b : Byte) :
    (rxb.length = bufCap ∧ splitterPush p cfg rxb b = ([], .err .rxOverflow (half bufCap) 0)) ∨
    (rxb.length ≠ bufCap ∧ endsFrame (rxb ++ [b]) = true ∧
      splitterPush p cfg rxb b = ([], .ok (.frame (decodeFrame p cfg (rxb ++ [b]))))) ∨
    (rxb.length ≠ bufCap ∧ endsFrame (rxb ++ [b]) = false ∧
      splitterPush p cfg rxb b = (rxb ++ [b], .ok .noFrame)) := by
  by_cases hfull : rxb.length = bufCap
  · exact .inl ⟨hfull, splitterPush_full hfull⟩
  · cases hend : endsFrame (rxb ++ [b]) with
    | true => exact .inr (.inl ⟨hfull, rfl, splitterPush_frame hfull hend⟩)
    | false => exact .inr (.inr ⟨hfull, rfl, splitterPush_append hfull hend⟩)

/-! ### Feeding bytes -/

/-- Bytes without a terminator are kept in order, as long as they fit. -/
theorem execAll_rxByte_open {s : State} (hempty : s.rxb = []) {bytes : Buffer} (hlen : bytes.length ≤ 255)
    (hopen : hasTerminator bytes = false) :
    execAll (bytes.map Instr.rxByte) s =
      .next { s with rxb := bytes, response := if bytes = [] then s.response else some (.ok .noFrame) } := by
  induction bytes using List.reverseRecOn with
  | nil =>
    obtain ⟨cfg, crc, rxb, pending, response⟩ := s
    subst hempty
    rfl
  | append_singleton init b ih =>
    rw [hasTerminator_concat, Bool.or_eq_false_iff] at hopen
    rw [List.length_append, List.length_singleton] at hlen
    obtain ⟨hinit, hend⟩ := hopen
    have hroom : init.length ≠ bufCap := by simp only [bufCap]; omega
    rw [List.map_append, execAll_append (ih (by omega) hinit), List.map_singleton,
      execAll_cons (exec_rxByte (splitterPush_append hroom hend))]
    simp [execAll]

/-- The two terminator bytes end a frame (43_deframer.md R191). -/
theorem endsFrame_terminator (body : Buffer) : endsFrame (body ++ [0x0D] ++ [0x0A]) = true :=
  endsFrame_append_iff.mpr ⟨body, List.append_assoc ..⟩

/-- Settles O34: up to the first terminator byte the splitter keeps what it is fed; the second one cuts the frame. -/
theorem splitterDeliversWholeFrames : Obligations.SplitterDeliversWholeFrames := by
  refine ⟨fun s bytes hempty hne hlen hopen => ?_, fun s body hempty hlen hopen => ?_⟩
  · rw [execAll_rxByte_open hempty hlen hopen, if_neg hne]
  · have hbytes : body ++ [0x0D, 0x0A] = body ++ [0x0D] ++ [0x0A] := by rw [List.append_assoc]; rfl
    have hfit : (body ++ [0x0D]).length ≤ 255 := by rw [List.length_append, List.length_singleton]; omega
    have hroom : (body ++ [0x0D]).length ≠ bufCap := by
      rw [List.length_append, List.length_singleton, bufCap]; omega
    rw [hbytes, List.map_append, execAll_append (execAll_rxByte_open hempty hfit hopen), List.map_singleton,
      execAll_cons (exec_rxByte (splitterPush_frame hroom (endsFrame_terminator body)))]
    rfl

/-! ### The invariant -/

theorem inv_iff {s : State} : inv s = true ↔ cfgLegal s.cfg = true ∧ splitterClean s.rxb = true := by
  simp [inv]

theorem splitterClean_iff {rxb : Buffer} :
    splitterClean rxb = true ↔ rxb.length ≤ bufCap ∧ hasTerminator rxb = false := by
  simp [splitterClean]

@[simp] theorem splitterClean_nil : splitterClean [] = true := rfl

/-- RX.BYTE keeps the splitter clean: a byte that would complete a terminator empties it. -/
theorem splitterPush_clean {p : Params} {cfg : Cfg} {rxb : Buffer} {b : Byte} (h : splitterClean rxb = true) :
    splitterClean (splitterPush p cfg rxb b).1 = true := by
  obtain ⟨-, hpush⟩ | ⟨-, -, hpush⟩ | ⟨hroom, hend, hpush⟩ := splitterPush_cases p cfg rxb b
  case inr.inr =>
    obtain ⟨hlen, hopen⟩ := splitterClean_iff.mp h
    rw [hpush, splitterClean_iff, hasTerminator_concat, hopen, hend, List.length_append, List.length_singleton]
    exact ⟨by omega, rfl⟩
  all_goals rw [hpush, splitterClean_nil]

/-- Every instruction keeps the splitter clean. -/
theorem exec_splitterClean {i : Instr} {s t : State} (h : exec i s = .next t) (hs : splitterClean s.rxb = true) :
    splitterClean t.rxb = true := by
  obtain ⟨r, ⟨-, rfl⟩ | ⟨b, -, rfl⟩ | ⟨b, -, rfl⟩ | ⟨-, rfl⟩ | rfl⟩ := exec_next_cases h
  case inr.inr.inl => exact splitterPush_clean hs
  case inr.inr.inr.inl => exact splitterClean_nil
  all_goals exact hs

/-- Every step keeps the splitter clean. -/
theorem step_splitterClean {s t : State} (h : step s = .next t) (hs : splitterClean s.rxb = true) :
    splitterClean t.rxb = true := by
  obtain ⟨-, rfl⟩ | ⟨item, rest, -, ⟨i, -, hexec⟩ | ⟨op, -, rfl⟩ | ⟨-, rfl⟩⟩ := step_next_cases h
  · exact hs
  · exact exec_splitterClean hexec hs
  · exact hs
  · exact splitterClean_nil

/-- Settles O50: the configuration is immutable, and every step keeps the splitter clean. -/
theorem invariantIsKept : Obligations.InvariantIsKept := by
  intro s t hinv h
  obtain ⟨hcfg, hclean⟩ := inv_iff.mp hinv
  exact inv_iff.mpr ⟨configurationIsImmutable s t h ▸ hcfg, step_splitterClean h hclean⟩

/-- Settles O51: a booted state has its own configuration and an empty splitter. -/
theorem invariantHoldsAfterReset : Obligations.InvariantHoldsAfterReset :=
  ⟨inv_iff.mpr ⟨rfl, splitterClean_nil⟩, fun _ hcfg => inv_iff.mpr ⟨hcfg, splitterClean_nil⟩⟩

end Sys2Proof.Proofs
end

section
/-! What an error response leaves unchanged (60_exceptions.md R214): RX.BYTE alone answers RxOverflow, and no other
error comes with a write. -/

namespace Sys2Proof.Proofs

open Machine Laws Safety

/-! ### RxOverflow is no error of an operation without state -/

/-- The operation does not answer RxOverflow. -/
def NoOverflow {α : Type} (r : Result α) : Prop :=
  ∀ d0 d1, r ≠ .err .rxOverflow d0 d1

theorem noOverflow_ok {α : Type} (v : α) : NoOverflow (Result.ok v) :=
  nofun

theorem noOverflow_err {α : Type} {e : ErrName} (he : e ≠ .rxOverflow) (d0 d1 : Half) :
    NoOverflow (.err e d0 d1 : Result α) := by
  intro d0' d1' h
  cases h
  exact he rfl

/-- An error keeps its name when it bubbles (60_exceptions.md R211). -/
theorem noOverflow_map {α β : Type} (f : α → β) {r : Result α} (h : NoOverflow r) : NoOverflow (Result.map f r) := by
  cases r with
  | ok v => exact noOverflow_ok _
  | err e d0 d1 => exact noOverflow_err (fun he => h d0 d1 (he ▸ rfl)) d0 d1

theorem noOverflow_kindOf (n : Nat) (dt : BitVec 2) : NoOverflow (kindOf params n dt) :=
  fun _ _ h => absurd (kindOf_err_cases h) (by decide)

theorem noOverflow_parse (buf : Buffer) (dt : BitVec 2) : NoOverflow (parse params buf dt) :=
  fun d0 d1 h => noOverflow_kindOf _ _ d0 d1 (kindOf_of_parse_err h)

theorem noOverflow_genPayload (dt : BitVec 2) (n : Nat) (val : Val) : NoOverflow (genPayload params dt n val) := by
  cases hk : kindOf params n dt with
  | err e d0 d1 =>
    rw [genPayload_of_kindOf_err hk]
    exact noOverflow_err (fun he => noOverflow_kindOf n dt d0 d1 (he ▸ hk)) d0 d1
  | ok k =>
    cases hfits : fits k val with
    | true => rw [genPayload_of_fits hk hfits]; exact noOverflow_ok _
    | false => rw [genPayload_outOfRange hk hfits]; exact noOverflow_err (by decide) _ _

theorem noOverflow_u16Pack (v : BitVec 32) : NoOverflow (u16Pack v) := by
  unfold u16Pack
  split
  · exact noOverflow_err (by decide) _ _
  · exact noOverflow_ok _

theorem noOverflow_encodeTail (cfg : Cfg) (e : ChEntry) (seqBytes : Buffer) (szf : BitVec 2) (mt : BitVec 32)
    (val : Val) : NoOverflow (encodeTail params cfg e seqBytes szf mt val) := by
  unfold encodeTail
  split
  · exact noOverflow_err (by decide) _ _
  · split
    next hpayload => exact hpayload ▸ noOverflow_genPayload e.dt e.size.toNat val
    · exact noOverflow_ok _

theorem noOverflow_encodeSp (cfg : Cfg) (seq mt : BitVec 32) (val : Val) :
    NoOverflow (encodeSp params cfg seq mt val) := by
  unfold encodeSp
  split
  · exact noOverflow_err (by decide) _ _
  · split
    next hseq => exact hseq ▸ noOverflow_u16Pack seq
    · split
      · exact noOverflow_err (by decide) _ _
      · exact noOverflow_encodeTail _ _ _ _ _ _

theorem noOverflow_checkedFrame {α : Type} (cfg : Cfg) (buf : Buffer) {k : Result α} (hk : NoOverflow k) :
    NoOverflow (checkedFrame params cfg buf k) := by
  intro d0 d1 h
  rcases checkedFrame_err_cases h with hheader | hrest
  · exact absurd hheader (by decide)
  · exact hk d0 d1 hrest

theorem noOverflow_decodeSp (cfg : Cfg) (buf : Buffer) : NoOverflow (decodeSp params cfg buf) := by
  unfold decodeSp
  split
  · exact noOverflow_err (by decide) _ _
  · exact noOverflow_checkedFrame cfg buf fun _ _ h => absurd (decodeFields_err_cases h) (by decide)

theorem noOverflow_decodeFs (cfg : Cfg) (buf : Buffer) : NoOverflow (decodeFs params cfg buf) := by
  unfold decodeFs
  split
  · exact noOverflow_err (by decide) _ _
  · exact noOverflow_checkedFrame cfg buf (noOverflow_ok _)

theorem noOverflow_kindMapRow (mtf : BitVec 4) (size : Nat) (t : DataType) :
    NoOverflow (kindMapRow params mtf size t) :=
  noOverflow_map _ (noOverflow_kindOf _ _)

/-- No operation without state answers RxOverflow (60_exceptions.md R211). -/
theorem noOverflow_of_isPure {i : Instr} (hi : isPure i = true) {s : State} {r : Response} (h : answers i s r) :
    NoOverflow r := by
  cases i
  case crcInit | crcUpd | crcFin | rxByte | rxFlush => cases hi
  all_goals cases h
  case crc16 | u16up => exact noOverflow_ok _
  case getp => exact noOverflow_map _ (noOverflow_kindOf _ _)
  case parse => exact noOverflow_map _ (noOverflow_parse _ _)
  case genp => exact noOverflow_map _ (noOverflow_genPayload _ _ _)
  case u16pk => exact noOverflow_map _ (noOverflow_u16Pack _)
  case enc => exact noOverflow_map _ (noOverflow_encodeSp _ _ _ _)
  case fsEnc => exact noOverflow_err (by decide) _ _
  case dec | spPkt1 | spPkt2 | spPkt4 | spPkt8 => exact noOverflow_map _ (noOverflow_decodeSp _ _)
  case fsDec | fsPkt => exact noOverflow_map _ (noOverflow_decodeFs _ _)
  all_goals exact noOverflow_kindMapRow _ _ _

/-! ### Errors -/

/-- An instruction that answers an error writes nothing else, but for RX.BYTE at a full splitter. -/
theorem exec_err_cases {i : Instr} {s t : State} {e : ErrName} {d0 d1 : Half} (h : exec i s = .next t)
    (herr : t.response = some (.err e d0 d1)) :
    (e ≠ .rxOverflow ∧ t = respond s (.err e d0 d1)) ∨
      (e = .rxOverflow ∧ s.rxb.length = 255 ∧ t = respond { s with rxb := [] } (.err e d0 d1)) := by
  cases hi : isPure i with
  | true =>
    obtain ⟨r, hr⟩ := answers_of_isPure hi s
    cases hr.symm.trans h
    cases herr
    exact .inl ⟨fun he => noOverflow_of_isPure hi hr d0 d1 (he ▸ rfl), rfl⟩
  | false =>
    cases i
    case crcInit | crcUpd | crcFin | rxFlush => cases h; cases herr
    case rxByte b =>
      obtain ⟨hfull, hpush⟩ | ⟨-, -, hpush⟩ | ⟨-, -, hpush⟩ := splitterPush_cases params s.cfg s.rxb b
      all_goals
        rw [exec_rxByte hpush] at h
        cases h
        cases herr
      exact .inr ⟨rfl, hfull, rfl⟩
    all_goals cases hi

/-- Settles O42: an illegal command code and an instruction that answers an error; idling and reset answer nothing. -/
theorem errorChangesNoState : Obligations.ErrorChangesNoState := by
  intro s t e d0 d1 h herr
  obtain ⟨-, rfl⟩ | ⟨item, rest, hp, hitem⟩ := step_next_cases h
  · cases herr
  rw [hp, List.tail_cons]
  obtain ⟨i, -, hexec⟩ | ⟨op, -, rfl⟩ | ⟨-, rfl⟩ := hitem
  · obtain ⟨he, rfl⟩ | ⟨he, hfull, rfl⟩ := exec_err_cases hexec herr
    · exact ⟨rfl, rfl, rfl, .inl ⟨he, rfl⟩⟩
    · exact ⟨rfl, rfl, rfl, .inr ⟨he, hfull, rfl⟩⟩
  · cases herr
    exact ⟨rfl, rfl, rfl, .inl ⟨by decide, rfl⟩⟩
  · cases herr

end Sys2Proof.Proofs
end

section
/-! The bytes of a single packet (30_encoding.md R72, R77): where each field stands, and that the decoder's checks
pass on a packet with a right length byte and CRC. -/

namespace Sys2Proof.Proofs

open Machine Laws Safety

/-! ### A body and its trailer -/

section

variable (body : Buffer) (crc : Half)

@[simp] theorem withTrailer_length : (withTrailer body crc).length = body.length + 4 := by
  simp [withTrailer]

theorem withTrailer_getElem?_of_lt {i : Nat} (h : i < body.length) : (withTrailer body crc)[i]? = body[i]? := by
  rw [withTrailer_eq_append, List.getElem?_append_left h]

theorem withTrailer_getElem?_trailer (i : Nat) : (withTrailer body crc)[body.length + i]? =
    [crc.extractLsb' 0 8, crc.extractLsb' 8 8, 0x0D, 0x0A][i]? := by
  rw [withTrailer_eq_append, List.getElem?_append_right (by omega), Nat.add_sub_cancel_left]

/-- The bytes the CRC is recomputed over are the body (43_deframer.md R174). -/
theorem withTrailer_take_body : (withTrailer body crc).take ((withTrailer body crc).length - 4) = body := by
  rw [withTrailer_length, Nat.add_sub_cancel, withTrailer_eq_append, List.take_left]

/-- A word is its two bytes joined. -/
theorem half_eq_append_bytes (x : Half) : x = x.extractLsb' 8 8 ++ x.extractLsb' 0 8 := by
  rw [show x.extractLsb' 8 8 ++ x.extractLsb' 0 8 = x.extractLsb' 0 (8 + 8) from
    BitVec.extractLsb'_append_extractLsb'_eq_extractLsb' (by decide), BitVec.extractLsb'_eq_self]

/-- A packet whose trailer is made of its body's CRC passes the CRC check (43_deframer.md R174). -/
theorem crcOk_withTrailer (p : Params) : crcOk p (withTrailer body (crc16 p body)) := by
  refine ⟨(crc16 p body).extractLsb' 0 8, (crc16 p body).extractLsb' 8 8, ?_, ?_, ?_⟩
  · rw [withTrailer_length, Nat.add_sub_cancel]
    exact withTrailer_getElem?_trailer body _ 0
  · rw [withTrailer_length, show body.length + 4 - 3 = body.length + 1 by omega]
    exact withTrailer_getElem?_trailer body _ 1
  · rw [withTrailer_take_body, ← half_eq_append_bytes]

/-- A 16-bit field is read where its two bytes stand. -/
theorem memRead_two_of_bytesAt {buf : Buffer} {off : Nat} {x : Half} (h : bytesAt buf off 2 = leBytes 2 x.toNat) :
    memRead buf off 2 = x :=
  memRead_eq_of_bytesAt (n := 2) (v := x) h

/-- The CRC at its offset, four bytes before the end (30_encoding.md R77). -/
theorem withTrailer_memRead_crc : memRead (withTrailer body crc) ((withTrailer body crc).length - 4) 2 = crc := by
  rw [withTrailer_length, Nat.add_sub_cancel]
  exact memRead_two_of_bytesAt
    (bytesAt_middle (a := body) (c := [term0, term1]) (List.append_assoc ..) rfl (leBytes_length _ _))

end

/-! ### The fields of a single packet -/

section

variable (verb0 verb1 c c2 : Byte) (n : Nat) (seq : Half) (payload : Nat) (crc : Half)

/-- The packet cut at its fields of more than one byte: sequence number, payload, CRC (30_encoding.md R72). -/
theorem spWire_eq_append : spWire verb0 verb1 n seq c c2 payload crc =
    [verb0, verb1, BitVec.ofNat 8 (spOverhead + n)] ++ leBytes 2 seq.toNat ++ [c, c2] ++ leBytes n payload ++
      leBytes 2 crc.toNat ++ [term0, term1] :=
  rfl

theorem spWire_length : (spWire verb0 verb1 n seq c c2 payload crc).length = spOverhead + n := by
  rw [spWire_eq_append]
  simp [spOverhead]
  omega

/-- The sequence number at its offset. -/
theorem spWire_memRead_seq : memRead (spWire verb0 verb1 n seq c c2 payload crc) 3 2 = seq := by
  refine memRead_two_of_bytesAt (bytesAt_middle (a := [verb0, verb1, BitVec.ofNat 8 (spOverhead + n)])
    (c := [c, c2] ++ leBytes n payload ++ leBytes 2 crc.toNat ++ [term0, term1]) ?_ rfl (leBytes_length _ _))
  simp [spWire_eq_append]

/-- The payload at its offset. -/
theorem spWire_bytesAt_payload : bytesAt (spWire verb0 verb1 n seq c c2 payload crc) 7 n = leBytes n payload := by
  refine bytesAt_middle (a := [verb0, verb1, BitVec.ofNat 8 (spOverhead + n)] ++ leBytes 2 seq.toNat ++ [c, c2])
    (c := leBytes 2 crc.toNat ++ [term0, term1]) ?_ (by simp) (leBytes_length _ _)
  simp [spWire_eq_append]

/-- The CRC at its offset. -/
theorem spWire_memRead_crc : memRead (spWire verb0 verb1 n seq c c2 payload crc) (7 + n) 2 = crc := by
  refine memRead_two_of_bytesAt (bytesAt_middle (a := [verb0, verb1, BitVec.ofNat 8 (spOverhead + n)] ++
    leBytes 2 seq.toNat ++ [c, c2] ++ leBytes n payload) (c := [term0, term1]) ?_ ?_ (leBytes_length _ _))
  · simp [spWire_eq_append]
  · simp
    omega

theorem spWire_terminator :
    (spWire verb0 verb1 n seq c c2 payload crc)[(spWire verb0 verb1 n seq c c2 payload crc).length - 2]? = some 0x0D ∧
    (spWire verb0 verb1 n seq c c2 payload crc)[(spWire verb0 verb1 n seq c c2 payload crc).length - 1]? =
      some 0x0A := by
  rw [spWire, withTrailer_length]
  exact ⟨withTrailer_getElem?_trailer _ _ 2, withTrailer_getElem?_trailer _ _ 3⟩

/-- The length byte of a packet of a legal size is its length (30_encoding.md R72). -/
theorem spWire_lengthByteOk (h : n ≤ 8) : lengthByteOk (spWire verb0 verb1 n seq c c2 payload crc) := by
  refine ⟨BitVec.ofNat 8 (spOverhead + n), rfl, ?_⟩
  rw [spWire_length, BitVec.toNat_ofNat, Nat.mod_eq_of_lt (by simp only [spOverhead]; omega)]

end

/-! ### DEC of a packet -/

section

variable {p : Params} {cfg : Cfg} {seq crc : Half} {m : BitVec 4} {szf d : BitVec 2} {c2 : Byte} {n : Nat}
  {x : BitVec (8 * n)} {e : ChEntry} {k : Kind}

/-- The fields of a packet pass the checks on the cfg1 byte (43_deframer.md R176 to R178). -/
theorem decodeFields_spWire (hsize : sizeOfSzf szf = n) (hch : channel cfg m.toNat = some e)
    (hkind : kindOf p n d = .ok k) :
    decodeFields p cfg (spWire cfg.ver0 cfg.ver1 n seq (cfg1Pack p.layout m szf d) c2 x.toNat crc) =
      .ok (spMessage seq m d k c2 (leBytes n x.toNat) (valForm k x) e) := by
  obtain ⟨-, -, t, ht, -⟩ := kindOf_ok hkind
  obtain ⟨hm, hs, hd⟩ := cfg1_unpack p.layout m szf d
  have hlen := spWire_length cfg.ver0 cfg.ver1 (cfg1Pack p.layout m szf d) c2 n seq x.toNat crc
  have hseq := spWire_memRead_seq cfg.ver0 cfg.ver1 (cfg1Pack p.layout m szf d) c2 n seq x.toNat crc
  have hraw := spWire_bytesAt_payload cfg.ver0 cfg.ver1 (cfg1Pack p.layout m szf d) c2 n seq x.toNat crc
  rw [bytesAt_eq_slice (by rw [hlen, spOverhead]; omega)] at hraw
  have h5 : byteAt (spWire cfg.ver0 cfg.ver1 n seq (cfg1Pack p.layout m szf d) c2 x.toNat crc) 5 =
    cfg1Pack p.layout m szf d := rfl
  rw [decodeFields_ok_iff, h5, hm, hs, hd, hsize, hraw, hseq, hlen]
  refine ⟨e, k, valForm k x, by omega, hch, parse_leBytes hkind x, ⟨t, ht⟩, ?_⟩
  rw [spMessage, leBytes_length]
  rfl

/-- DEC of a packet with the version pair of the receiver, a right CRC, a configured channel and a kind answers
the message of its fields (43_deframer.md R170). -/
theorem decodeSp_spWire (hsize : sizeOfSzf szf = n) (hch : channel cfg m.toNat = some e)
    (hkind : kindOf p n d = .ok k)
    (hcrc : crc = crc16 p (spBody cfg.ver0 cfg.ver1 (BitVec.ofNat 8 (spOverhead + n)) (leBytes 2 seq.toNat)
      (cfg1Pack p.layout m szf d) c2 (leBytes n x.toNat))) :
    decodeSp p cfg (spWire cfg.ver0 cfg.ver1 n seq (cfg1Pack p.layout m szf d) c2 x.toNat crc) =
      .ok (spMessage seq m d k c2 (leBytes n x.toNat) (valForm k x) e) := by
  have hpos : 0 < n := (kindOf_ok hkind).2.1 ▸ (kindBytes_bounds k).1
  have hbig : 11 < (spWire cfg.ver0 cfg.ver1 n seq (cfg1Pack p.layout m szf d) c2 x.toNat crc).length := by
    rw [spWire_length, spOverhead]
    omega
  rw [decodeSp_eq_checkedFrame hbig, checkedFrame_of_ok (spWire_lengthByteOk _ _ _ _ _ _ _ _ (kindOf_size_le hkind))
    ⟨rfl, rfl⟩ (hcrc ▸ crcOk_withTrailer _ p) (by omega), decodeFields_spWire hsize hch hkind]

end

end Sys2Proof.Proofs
end

section
/-! ENC and DEC one after the other (42_framer.md R152; 43_deframer.md R170), and the single-packet rows. -/

namespace Sys2Proof.Proofs

open Machine Laws Safety

/-! ### The packet ENC returns -/

/-- A 32-bit word that stands for no negative number. -/
theorem toNat_eq_toInt_of_nonneg {v : BitVec 32} (h : 0 ≤ v.toInt) : (v.toNat : Int) = v.toInt := by
  rw [BitVec.toInt_eq_toNat_cond] at h ⊢
  split
  · rfl
  next hbig =>
    rw [if_neg hbig] at h
    omega

/-- The low bits of a word that fits them. -/
theorem extractLsb'_zero_toNat {v : BitVec 32} {w : Nat} (h0 : 0 ≤ v.toInt) (h1 : v.toInt < 2 ^ w) :
    ((v.extractLsb' 0 w).toNat : Int) = v.toInt := by
  have hnat := toNat_eq_toInt_of_nonneg h0
  have hlt : v.toNat < 2 ^ w := by
    rw [← hnat] at h1
    exact_mod_cast h1
  rw [BitVec.extractLsb'_toNat, Nat.shiftRight_zero, Nat.mod_eq_of_lt hlt, hnat]

/-- A configured channel has a number of at least 0 (10_state.md R22). -/
theorem channel_nonneg {cfg : Cfg} {mt : Int} {e : ChEntry} (h : channel cfg mt = some e) : 0 ≤ mt := by
  by_contra hneg
  rw [channel, if_neg (fun hrange => hneg hrange.1)] at h
  cases h

/-- The two bytes of U16PK are the little-endian bytes of the low half. -/
theorem u16Pack_bytes_eq_leBytes (v : BitVec 32) :
    [v.extractLsb' 0 8, v.extractLsb' 8 8] = leBytes 2 (v.extractLsb' 0 16).toNat := by
  rw [leBytes_two, BitVec.extractLsb'_extractLsb'_of_le (by decide), BitVec.extractLsb'_extractLsb'_of_le (by decide)]

section

variable {p : Params} {cfg : Cfg} {seq mt : BitVec 32} {val : Val} {pkt : Buffer}

/-- When ENC returns a packet: what it has checked, and the packet as one of the wire's rows. -/
theorem encodeSp_ok_spWire (h : encodeSp p cfg seq mt val = .ok pkt) :
    ∃ e k szf crc, channel cfg mt.toInt = some e ∧ 0 ≤ seq.toInt ∧ seq.toInt ≤ 65535 ∧ mt.toInt ≤ 15 ∧
      sizeOfSzf szf = e.size.toNat ∧ kindOf p e.size.toNat e.dt = .ok k ∧ fits k val = true ∧
      crc = crc16 p (spBody cfg.ver0 cfg.ver1 (BitVec.ofNat 8 (spOverhead + e.size.toNat))
        (leBytes 2 (seq.extractLsb' 0 16).toNat) (cfg1Pack p.layout (mt.extractLsb' 0 4) szf e.dt) e.cfg2
        (leBytes e.size.toNat (val.setWidth (8 * e.size.toNat)).toNat)) ∧
      pkt = spWire cfg.ver0 cfg.ver1 e.size.toNat (seq.extractLsb' 0 16)
        (cfg1Pack p.layout (mt.extractLsb' 0 4) szf e.dt) e.cfg2
        (val.setWidth (8 * e.size.toNat)).toNat crc := by
  obtain ⟨e, seqBytes, szf, payload, hch, hseq, hszf, hmt, hpayload, hpkt⟩ := encodeSp_ok_iff.mp h
  obtain ⟨hseq0, hseq1, rfl⟩ := u16Pack_ok_iff.mp hseq
  obtain ⟨k, hkind, hfits, rfl⟩ := genPayload_ok_iff.mp hpayload
  rw [u16Pack_bytes_eq_leBytes] at hpkt
  exact ⟨e, k, szf, _, hch, hseq0, hseq1, hmt, szfOfSize_eq_some.mp hszf, hkind, hfits, rfl, hpkt⟩

/-- DEC of a packet ENC returned (42_framer.md, the round trip). -/
theorem decodeSp_of_encodeSp (h : encodeSp p cfg seq mt val = .ok pkt) :
    ∃ e m, channel cfg mt.toInt = some e ∧ decodeSp p cfg pkt = .ok m ∧
      (m.seq.toNat : Int) = seq.toInt ∧ (m.mt.toNat : Int) = mt.toInt ∧ m.dt = e.dt ∧ m.size = e.size ∧
      m.cfg2 = e.cfg2 ∧ m.val = val ∧ m.entry = some e := by
  obtain ⟨e, k, szf, crc, hch, hseq0, hseq1, hmt, hsize, hkind, hfits, hcrc, rfl⟩ := encodeSp_ok_spWire h
  have hmtf := extractLsb'_zero_toNat (w := 4) (channel_nonneg hch) (by omega)
  have hwire : channel cfg (mt.extractLsb' 0 4).toNat = some e := by rw [hmtf, hch]
  refine ⟨e, _, hch, decodeSp_spWire hsize hwire hkind hcrc, ?_, ?_, rfl, ?_, rfl, ?_, rfl⟩
  · exact extractLsb'_zero_toNat hseq0 (by omega)
  · rw [spMessage, BitVec.toNat_setWidth_of_le (by decide), hmtf]
  · rw [spMessage, leBytes_length, BitVec.ofNat_toNat, BitVec.setWidth_eq]
  · exact eq_valForm_of_fits hkind hfits

end

/-- ENC's response is a packet only where `encodeSp` returns it. -/
theorem encodeSp_of_enc_ok {seq mt : BitVec 32} {val : Val} {s t : State} {pkt : Buffer}
    (h : exec (.enc seq mt val) s = .next t) (hok : t.response = some (.ok (.bytes pkt))) :
    encodeSp params s.cfg seq mt val = .ok pkt := by
  cases henc : encodeSp params s.cfg seq mt val with
  | ok pkt' =>
    cases (answers_enc s henc).symm.trans h
    cases hok
    rfl
  | err e d0 d1 =>
    cases (answers_enc s henc).symm.trans h
    cases hok

/-- Settles O21: the packet carries the fields DEC reads, and VAL is the form of its own low part. -/
theorem encThenDecGivesBack : Obligations.EncThenDecGivesBack := by
  refine ⟨fun p cfg seq mt val pkt h => decodeSp_of_encodeSp h, fun seq mt val s t pkt h hok => ?_⟩
  obtain ⟨e, m, hch, hdec, hseq, hmt, -, -, -, hval, hentry⟩ := decodeSp_of_encodeSp (encodeSp_of_enc_ok h hok)
  rw [← exec_cfg h] at hdec
  exact ⟨e, m, hch, answers_dec t hdec, hseq, hmt, hval, hentry⟩

/-- Settles O22: a size with a kind is 1, 2, 4 or 8, and the packet is built from the wire's row. -/
theorem encPacketLengths : Obligations.EncPacketLengths := by
  intro p cfg seq mt val pkt h
  obtain ⟨e, k, szf, crc, -, -, -, -, -, hkind, -, hcrc, rfl⟩ := encodeSp_ok_spWire h
  refine ⟨?_, spWire_lengthByteOk _ _ _ _ _ _ _ _ (kindOf_size_le hkind), ⟨rfl, rfl⟩,
    hcrc ▸ crcOk_withTrailer _ p, spWire_terminator ..⟩
  have hlegal := legalSize_iff_mem.mp (kindOf_ok hkind).1
  rw [spWire_length, spOverhead]
  simp only [List.mem_cons, List.not_mem_nil, or_false] at hlegal ⊢
  omega

/-! ### The single-packet rows -/

/-- A packet row with a right CRC, a configured channel and a kind (log 7). -/
theorem receiveSp_spWire {cfg : Cfg} {seq crc : Half} {m : BitVec 4} {szf d : BitVec 2} {c2 : Byte} {n : Nat}
    {x : BitVec (8 * n)} {e : ChEntry} {k : Kind} (hsize : sizeOfSzf szf = n) (hch : channel cfg m.toNat = some e)
    (hkind : kindOf params n d = .ok k)
    (hcrc : crc = crc16 params ([cfg.ver0, cfg.ver1, BitVec.ofNat 8 (spOverhead + n)] ++ leBytes 2 seq.toNat ++
      [(m ++ szf ++ d : BitVec 8), c2] ++ leBytes n x.toNat)) :
    receiveSp params cfg (spWire cfg.ver0 cfg.ver1 n seq (cfg1Pack .lsb0 m szf d) c2 x.toNat crc) =
      .ok (.decoded (.single (spMessage seq m d k c2 (leBytes n x.toNat) (valForm k x) e))) := by
  rw [← cfg1Pack_params] at hcrc
  rw [receiveSp, ← params_layout, decodeSp_spWire hsize hch hkind hcrc]
  rfl


/-- Settles O38: the four rows are one packet at its four sizes. -/
theorem singlePacketRowsDecode : Obligations.SinglePacketRowsDecode := by
  intro s seq m d c2 e k hch
  refine ⟨fun x hkind crc hcrc => ?_, fun x hkind crc hcrc => ?_, fun x hkind crc hcrc => ?_,
    fun x hkind crc hcrc => ?_⟩
  · exact answers_of_exec rfl
      (receiveSp_spWire (szf := 0) (n := 1) (x := x) rfl hch hkind hcrc)
  · exact answers_of_exec rfl
      (receiveSp_spWire (szf := 1) (n := 2) (x := x) rfl hch hkind hcrc)
  · exact answers_of_exec rfl
      (receiveSp_spWire (szf := 2) (n := 4) (x := x) rfl hch hkind hcrc)
  · exact answers_of_exec rfl
      (receiveSp_spWire (szf := 3) (n := 8) (x := x) rfl hch hkind hcrc)

end Sys2Proof.Proofs
end

section
/-! Float-sequence packets (30_encoding.md R78; 43_deframer.md R185, R186): the fields at their offsets, and the
message of each. -/

namespace Sys2Proof.Proofs

open Machine Laws Safety

/-! ### Fields -/

/-- Fields of 4 bytes are read where their bytes stand. -/
theorem fieldsAt_of_bytesAt {buf : Buffer} {off : Nat} {flds : List (BitVec 32)}
    (h : bytesAt buf off (4 * flds.length) = flds.flatMap (fun f => leBytes 4 f.toNat)) :
    fieldsAt buf off flds.length = flds := by
  induction flds generalizing off with
  | nil => rfl
  | cons f fs ih =>
    rw [List.length_cons, show 4 * (fs.length + 1) = 4 + 4 * fs.length by omega, bytesAt_add, List.flatMap_cons] at h
    obtain ⟨hfirst, hrest⟩ := List.append_inj h (by simp)
    have hread : memRead buf off 4 = f := memRead_eq_of_bytesAt (n := 4) (v := f) hfirst
    rw [List.length_cons, fieldsAt, hread, ih hrest]
    congr 1

/-- The bytes of the fields read are the bytes that stand there. -/
theorem flatMap_fieldsAt (buf : Buffer) (off k : Nat) :
    (fieldsAt buf off k).flatMap (fun f => leBytes 4 f.toNat) = bytesAt buf off (4 * k) := by
  induction k generalizing off with
  | zero => rfl
  | succ k ih =>
    have hfirst : leBytes 4 ((memRead buf off 4).setWidth 32).toNat = bytesAt buf off 4 := leBytes_memRead buf off 4
    rw [show 4 * (k + 1) = 4 + 4 * k by omega, bytesAt_add, fieldsAt, List.flatMap_cons, ih, hfirst]

/-- The fields of a packet are where the row puts them (30_encoding.md R78). -/
theorem fieldsAt_fsWire (verb0 verb1 lenb : Byte) (flds : List (BitVec 32)) (crc : Half) :
    fieldsAt (fsWire verb0 verb1 lenb flds crc) 3 flds.length = flds := by
  refine fieldsAt_of_bytesAt (bytesAt_middle (a := [verb0, verb1, lenb]) (c := leBytes 2 crc.toNat ++ [term0, term1])
    ?_ rfl (flatMap_leBytes_length flds))
  simp [fsWire, withTrailer, fsBody]

/-! ### Messages -/

/-- The message of one field with its pattern (43_deframer.md R185). -/
def fieldMessage (p : Params) (tag : Byte) (f : BitVec 32) : Msg where
  seq := 0
  mt := tag
  dt := p.dtCode .float
  size := 4
  kind := .f32
  cfg2 := 0
  raw := leBytes 4 f.toNat
  val := f.setWidth 64
  rval := some (p.round2 f)
  entry := none

theorem fsMessage_eq_fieldMessage {p : Params} {buf : Buffer} {off : Nat} {tag : Byte} (h : off + 4 ≤ buf.length) :
    fsMessage p buf off tag = fieldMessage p tag ((memRead buf off 4).setWidth 32) := by
  have hraw : slice buf off (off + fsField) = leBytes 4 ((memRead buf off 4).setWidth 32).toNat := by
    rw [fsField, ← bytesAt_eq_slice h]
    exact (leBytes_memRead buf off 4).symm
  rw [fsMessage, hraw]
  rfl

/-- Inside the frame the messages are those of the fields, tag by tag. -/
theorem fsMessages_eq_zipWith {p : Params} {buf : Buffer} {off : Nat} {tags : List Byte}
    (h : off + 4 * tags.length ≤ buf.length) :
    fsMessages p buf off tags = List.zipWith (fieldMessage p) tags (fieldsAt buf off tags.length) := by
  induction tags generalizing off with
  | nil => rfl
  | cons tag tags ih =>
    rw [List.length_cons] at h
    rw [fsMessages, fsMessage_eq_fieldMessage (by omega), fsField, ih (by omega)]
    rfl

/-- FS.DEC of a packet with the version pair of the receiver, one field per configured channel, its length in the
length byte and a right CRC. -/
theorem decodeFs_fsWire {p : Params} {cfg : Cfg} {lenb : Byte} {flds : List (BitVec 32)} {crc : Half}
    (hk : flds.length = Cfg.fsK cfg) (hlen : lenb.toNat = 7 + 4 * flds.length)
    (hcrc : crc = crc16 p (fsBody cfg.ver0 cfg.ver1 lenb flds)) :
    decodeFs p cfg (fsWire cfg.ver0 cfg.ver1 lenb flds crc) =
      .ok (List.zipWith (fieldMessage p) cfg.fsCh flds) := by
  have hsize : (fsWire cfg.ver0 cfg.ver1 lenb flds crc).length = 7 + 4 * flds.length := fsWire_length ..
  rw [decodeFs_of_ok (hk ▸ hsize) ⟨lenb, rfl, hlen.trans hsize.symm⟩ ⟨rfl, rfl⟩ (hcrc ▸ crcOk_withTrailer _ p),
    fsMessages_eq_zipWith (by rw [hsize, hk, Cfg.fsK]; omega),
    show cfg.fsCh.length = flds.length from hk.symm, fieldsAt_fsWire]

/-- Settles O39: the row's bytes are the packet of its fields. -/
theorem floatSequenceRowDecodes : Obligations.FloatSequenceRowDecodes := by
  intro s lenb flds crc hk hlen hcrc
  refine answers_of_exec rfl ?_
  rw [receiveFs, decodeFs_fsWire hk hlen hcrc]
  rfl

/-! ### Rounding -/

/-- Every message is that of one field. -/
theorem mem_fsMessages {p : Params} {buf : Buffer} {off : Nat} {tags : List Byte} {m : Msg}
    (h : m ∈ fsMessages p buf off tags) : ∃ off' tag, m = fsMessage p buf off' tag := by
  induction tags generalizing off with
  | nil => cases h
  | cons tag tags ih =>
    rcases List.mem_cons.mp h with rfl | hrest
    · exact ⟨off, tag, rfl⟩
    · exact ih hrest

/-- The number of a field's message is that of its pattern (41_field.md R124). -/
theorem num_fsMessage (p : Params) (buf : Buffer) (off : Nat) (tag : Byte) :
    num (fsMessage p buf off tag).kind (fsMessage p buf off tag).val = f32Value ((memRead buf off 4).setWidth 32) := by
  rw [fsMessage, num, BitVec.setWidth_setWidth_of_le _ (by decide)]

/-- Settles O31: RVAL is ROUND2 of the pattern whose value the message carries. -/
theorem twoDecimalFieldsSurviveRounding : Obligations.TwoDecimalFieldsSurviveRounding := by
  intro round2 hround cfg buf ms hdec m hm x hx htwo
  obtain ⟨-, hframe⟩ := decodeFs_ok_iff.mp hdec
  obtain ⟨-, -, -, -, hms⟩ := checkedFrame_ok_iff.mp hframe
  cases hms
  obtain ⟨off, tag, rfl⟩ := mem_fsMessages hm
  rw [num_fsMessage] at hx
  exact ⟨_, rfl, hround _ x hx htwo⟩

end Sys2Proof.Proofs
end

section
/-! What the decoders do not read, and what a damaged packet is answered (43_deframer.md sections 1 and 4;
70_reset_and_hazards.md section 3). -/

namespace Sys2Proof.Proofs

open Machine Laws Safety

/-! ### Reads before a cut see only the bytes before it -/

section

variable {a b : Buffer} {c : Nat}

theorem getElem?_congr_take {i : Nat} (h : a.take c = b.take c) (hi : i < c) : a[i]? = b[i]? := by
  rw [← List.getElem?_take_of_lt hi, h, List.getElem?_take_of_lt hi]

theorem byteAt_congr_take {i : Nat} (h : a.take c = b.take c) (hi : i < c) : byteAt a i = byteAt b i := by
  rw [byteAt, List.getD_eq_getElem?_getD, getElem?_congr_take h hi, ← List.getD_eq_getElem?_getD, ← byteAt]

theorem bytesAt_congr_take {off n : Nat} (h : a.take c = b.take c) (hn : off + n ≤ c) :
    bytesAt a off n = bytesAt b off n := by
  induction n generalizing off with
  | zero => rfl
  | succ n ih => rw [bytesAt, bytesAt, byteAt_congr_take h (by omega), ih (by omega)]

theorem memRead_congr_take {off n : Nat} (h : a.take c = b.take c) (hn : off + n ≤ c) :
    memRead a off n = memRead b off n := by
  rw [memRead, memRead, bytesAt_congr_take h hn]

theorem slice_congr_take {x y : Nat} (h : a.take c = b.take c) (hy : y ≤ c) : slice a x y = slice b x y := by
  have hcut : a.take y = b.take y := by
    rw [← Nat.min_eq_left hy, ← List.take_take, h, List.take_take]
  rw [slice, slice, ← List.drop_take, hcut, List.drop_take]

end

/-! ### The terminator (43_deframer.md R179) -/

section

variable {p : Params} {cfg : Cfg} {a b : Buffer}

theorem checkedFrame_congr_take {α : Type} {k : Result α} (h5 : 5 ≤ a.length) (hlen : a.length = b.length)
    (h : a.take (a.length - 2) = b.take (a.length - 2)) : checkedFrame p cfg a k = checkedFrame p cfg b k := by
  rw [checkedFrame, checkedFrame, ← hlen, byteAt_congr_take h (by omega : 2 < a.length - 2),
    byteAt_congr_take h (by omega : 1 < a.length - 2), byteAt_congr_take h (by omega : 0 < a.length - 2),
    memRead_congr_take h (by omega), slice_congr_take h (by omega)]

theorem decodeFields_congr_take (hbig : 11 < a.length) (hlen : a.length = b.length)
    (h : a.take (a.length - 2) = b.take (a.length - 2)) : decodeFields p cfg a = decodeFields p cfg b := by
  have hcfg1 : byteAt b 5 = byteAt a 5 := (byteAt_congr_take h (by omega)).symm
  simp only [decodeFields, ← hlen, hcfg1]
  by_cases hsize : sizeOfSzf (cfg1Szf p.layout (byteAt a 5)) = a.length - spOverhead
  · have hpayload : 7 + (a.length - spOverhead) ≤ a.length - 2 := by rw [spOverhead]; omega
    rw [hsize, slice_congr_take h hpayload, memRead_congr_take h (by omega : 3 + 2 ≤ a.length - 2),
      byteAt_congr_take h (by omega : 6 < a.length - 2)]
  · rw [if_pos hsize, if_pos hsize]

theorem fsMessages_congr_take {c off : Nat} {tags : List Byte} (h : a.take c = b.take c)
    (hc : off + 4 * tags.length ≤ c) : fsMessages p a off tags = fsMessages p b off tags := by
  induction tags generalizing off with
  | nil => rfl
  | cons tag tags ih =>
    rw [List.length_cons] at hc
    rw [fsMessages, fsMessages, fsField, ih (by omega), fsMessage, fsMessage, fsField,
      slice_congr_take h (by omega), memRead_congr_take h (by omega)]

/-- DEC reads nothing of the last two bytes. -/
theorem decodeSp_congr_take (hlen : a.length = b.length) (h : a.take (a.length - 2) = b.take (a.length - 2)) :
    decodeSp p cfg a = decodeSp p cfg b := by
  by_cases hbig : 11 < a.length
  · rw [decodeSp_eq_checkedFrame hbig, decodeSp_eq_checkedFrame (hlen ▸ hbig), decodeFields_congr_take hbig hlen h,
      checkedFrame_congr_take (by omega) hlen h]
  · rw [decodeSp_of_small (not_lt.mp hbig), decodeSp_of_small (hlen ▸ not_lt.mp hbig), hlen]

/-- FS.DEC reads nothing of the last two bytes. -/
theorem decodeFs_congr_take (hlen : a.length = b.length) (h : a.take (a.length - 2) = b.take (a.length - 2)) :
    decodeFs p cfg a = decodeFs p cfg b := by
  by_cases hsize : a.length = 7 + 4 * Cfg.fsK cfg
  · have hfields : 3 + 4 * cfg.fsCh.length ≤ a.length - 2 := by rw [hsize, Cfg.fsK]; omega
    rw [decodeFs_eq_checkedFrame hsize, decodeFs_eq_checkedFrame (hlen ▸ hsize), fsMessages_congr_take h hfields,
      checkedFrame_congr_take (by omega) hlen h]
  · rw [decodeFs_of_length_ne hsize, decodeFs_of_length_ne (hlen ▸ hsize), hlen]

end

/-- Settles O27: the buffer with other last bytes has the same length and the same bytes before them. -/
theorem decodersIgnoreTheTerminator : Obligations.DecodersIgnoreTheTerminator := by
  intro p cfg buf x y h2
  have hlen : (buf.take (buf.length - 2) ++ [x, y]).length = buf.length := by
    rw [List.length_append, List.length_take, List.length_cons, List.length_singleton]
    omega
  have hcut : (buf.take (buf.length - 2) ++ [x, y]).take (buf.length - 2) = buf.take (buf.length - 2) :=
    List.take_left' (by rw [List.length_take]; omega)
  exact ⟨decodeSp_congr_take hlen (by rwa [hlen]), decodeFs_congr_take hlen (by rwa [hlen])⟩

/-! ### A flipped bit (43_deframer.md section 4) -/

section

variable {buf : Buffer} {i j : Nat}

@[simp] theorem flipBit_length (buf : Buffer) (i j : Nat) : (flipBit buf i j).length = buf.length := by
  simp [flipBit]

theorem flipBit_getElem?_ne {i' : Nat} (h : i ≠ i') : (flipBit buf i j)[i']? = buf[i']? := by
  simp [flipBit, h]

theorem flipBit_getElem?_eq {b : Byte} (h : buf[i]? = some b) :
    (flipBit buf i j)[i]? = some (b ^^^ BitVec.twoPow 8 j) := by
  simp [flipBit, h]

/-- A flip past a cut is not seen before it. -/
theorem flipBit_take_of_le {c : Nat} (h : c ≤ i) : (flipBit buf i j).take c = buf.take c := by
  refine List.ext_getElem? fun n => ?_
  by_cases hn : n < c
  · rw [List.getElem?_take_of_lt hn, List.getElem?_take_of_lt hn, flipBit_getElem?_ne (by omega)]
  · rw [List.getElem?_take_eq_none (by omega), List.getElem?_take_eq_none (by omega)]

/-- A flip before a cut is a flip of the part before it. -/
theorem flipBit_take_of_lt (c : Nat) : (flipBit buf i j).take c = flipBit (buf.take c) i j := by
  rw [flipBit, flipBit, List.take_modify]

/-- A byte that is there. -/
theorem getElem?_eq_some_byteAt (h : i < buf.length) : buf[i]? = some (byteAt buf i) := by
  rw [byteAt_of_lt h, List.getElem?_eq_getElem h]

/-- A joined word tells its bytes apart. -/
theorem append_byte_inj {h0 h1 l0 l1 : Byte} (h : (h0 ++ l0 : Half) = h1 ++ l1) : h0 = h1 ∧ l0 = l1 := by
  have hnum : (u16Unpack l0 h0).toNat = (u16Unpack l1 h1).toNat := congrArg BitVec.toNat h
  rw [u16Unpack_toNat, u16Unpack_toNat] at hnum
  exact ⟨BitVec.eq_of_toNat_eq (by omega), BitVec.eq_of_toNat_eq (by omega)⟩

section

variable {α β : Type} {cfg : Cfg} {k : Result α} {k' : Result β} {v : α}

/-- What the checks found in a frame that passed them. -/
theorem checked_facts {p : Params} (h : checkedFrame p cfg buf k = .ok v) (h4 : 4 ≤ buf.length) :
    lengthByteOk buf ∧ versionOk cfg buf ∧
      crc16 p (buf.take (buf.length - 4)) = byteAt buf (buf.length - 3) ++ byteAt buf (buf.length - 4) := by
  obtain ⟨hlen, hv0, hv1, hcrc, -⟩ := checkedFrame_ok_iff.mp h
  rw [embeddedCrc_eq_append h4 (getElem?_eq_some_byteAt (by omega)) (getElem?_eq_some_byteAt (by omega))] at hcrc
  exact ⟨⟨_, getElem?_eq_some_byteAt (by omega), hlen.symm⟩,
    ⟨hv0 ▸ getElem?_eq_some_byteAt (by omega), hv1 ▸ getElem?_eq_some_byteAt (by omega)⟩, hcrc⟩

/-- A flip in the version pair is seen by the version check. -/
theorem checkedFrame_flip_version (h : checkedFrame params cfg buf k = .ok v) (h4 : 4 ≤ buf.length) (hj : j < 8)
    (hi : i < 2) : ∃ d0 d1, checkedFrame params cfg (flipBit buf i j) k' = .err .invalidVersionBytes d0 d1 := by
  obtain ⟨⟨b2, h2, hb2⟩, ⟨h0, h1⟩, -⟩ := checked_facts h h4
  have hlen : (flipBit buf i j).length = b2.toNat := by rw [flipBit_length, hb2]
  have h2' : (flipBit buf i j)[2]? = some b2 := by rw [flipBit_getElem?_ne (by omega), h2]
  obtain rfl | rfl : i = 0 ∨ i = 1 := by omega
  · have h1' : (flipBit buf 0 j)[1]? = some cfg.ver1 := by rw [flipBit_getElem?_ne (by omega), h1]
    exact ⟨_, _, checkedFrame_of_version_ne (flipBit_getElem?_eq h0) h1' h2' hlen (.inl (xor_twoPow_ne _ hj))⟩
  · have h0' : (flipBit buf 1 j)[0]? = some cfg.ver0 := by rw [flipBit_getElem?_ne (by omega), h0]
    exact ⟨_, _, checkedFrame_of_version_ne h0' (flipBit_getElem?_eq h1) h2' hlen (.inr (xor_twoPow_ne _ hj))⟩

/-- A flip in the length byte is seen by the length check. -/
theorem checkedFrame_flip_length (h : checkedFrame params cfg buf k = .ok v) (h4 : 4 ≤ buf.length) (hj : j < 8) :
    ∃ d0 d1, checkedFrame params cfg (flipBit buf 2 j) k' = .err .invalidPacketSizeByte d0 d1 := by
  obtain ⟨⟨b2, h2, hb2⟩, -, -⟩ := checked_facts h h4
  refine ⟨_, _, checkedFrame_of_length_ne (flipBit_getElem?_eq h2) ?_⟩
  rw [flipBit_length, ← hb2]
  exact fun heq => xor_twoPow_ne b2 hj (BitVec.eq_of_toNat_eq heq.symm)

/-- A flip in the checked bytes or in the CRC itself makes the two differ. -/
theorem crc_ne_of_flip (hcrc : crc16 params (buf.take (buf.length - 4)) =
      byteAt buf (buf.length - 3) ++ byteAt buf (buf.length - 4)) (h4 : 4 ≤ buf.length) (hj : j < 8)
    (hi : i < buf.length - 2) :
    crc16 params ((flipBit buf i j).take (buf.length - 4)) ≠
      byteAt (flipBit buf i j) (buf.length - 3) ++ byteAt (flipBit buf i j) (buf.length - 4) := by
  have hsame : ∀ i', i ≠ i' → byteAt (flipBit buf i j) i' = byteAt buf i' := fun i' hne => by
    rw [byteAt, byteAt, List.getD_eq_getElem?_getD, flipBit_getElem?_ne hne, ← List.getD_eq_getElem?_getD]
  have hflip : byteAt (flipBit buf i j) i ≠ byteAt buf i := by
    rw [byteAt_of_getElem? (flipBit_getElem?_eq (getElem?_eq_some_byteAt (by omega)))]
    exact xor_twoPow_ne _ hj
  by_cases hbody : i < buf.length - 4
  · rw [hsame _ (by omega), hsame _ (by omega), ← hcrc, flipBit_take_of_lt]
    exact crcDetectsOneFlippedBit _ _ _ (by rw [List.length_take]; omega) hj
  · rw [flipBit_take_of_le (by omega), hcrc]
    intro heq
    obtain ⟨hhi, hlo⟩ := append_byte_inj heq
    obtain rfl | rfl : i = buf.length - 4 ∨ i = buf.length - 3 := by omega
    · exact hflip hlo.symm
    · exact hflip hhi.symm

/-- A flip anywhere else before the terminator is seen by the CRC check. -/
theorem checkedFrame_flip_crc (h : checkedFrame params cfg buf k = .ok v) (h4 : 4 ≤ buf.length) (hj : j < 8)
    (h3 : 3 ≤ i) (hi : i < buf.length - 2) :
    ∃ d0 d1, checkedFrame params cfg (flipBit buf i j) k' = .err .invalidCRC16 d0 d1 := by
  obtain ⟨⟨b2, h2, hb2⟩, ⟨h0, h1⟩, hcrc⟩ := checked_facts h h4
  refine ⟨_, _, checkedFrame_of_crc_ne (b0 := cfg.ver0) (b1 := cfg.ver1) (b2 := b2) ?_ ?_ ?_ ?_ ⟨rfl, rfl⟩ ?_
    (getElem?_eq_some_byteAt ?_) (getElem?_eq_some_byteAt ?_) ?_⟩
  · rw [flipBit_getElem?_ne (by omega), h0]
  · rw [flipBit_getElem?_ne (by omega), h1]
  · rw [flipBit_getElem?_ne (by omega), h2]
  · rw [flipBit_length, hb2]
  · rwa [flipBit_length]
  · rw [flipBit_length]; omega
  · rw [flipBit_length]; omega
  · rw [flipBit_length]
    exact crc_ne_of_flip hcrc h4 hj hi

end

end

/-- Settles O28: each range of bytes is seen by its own check, whatever the rest of the decode would be; the
terminator by none. -/
theorem decodersClassifyBitFlips : Obligations.DecodersClassifyBitFlips := by
  refine ⟨fun cfg buf m i j hok hi hj => ?_, fun cfg buf ms i j hok hi hj => ?_⟩
  · obtain ⟨hbig, hframe⟩ := decodeSp_ok_iff.mp hok
    rw [spOverhead] at hbig
    have h4 : 4 ≤ buf.length := by omega
    have hflip := decodeSp_eq_checkedFrame (p := params) (cfg := cfg) (buf := flipBit buf i j)
      (by rwa [flipBit_length])
    refine ⟨fun hver => ?_, fun hlen => ?_, fun h3 hcrc => ?_, fun hterm => ?_⟩
    · rw [hflip]; exact checkedFrame_flip_version hframe h4 hj hver
    · subst hlen; rw [hflip]; exact checkedFrame_flip_length hframe h4 hj
    · rw [hflip]; exact checkedFrame_flip_crc hframe h4 hj h3 hcrc
    · rw [← hok]
      exact decodeSp_congr_take (flipBit_length ..) (flipBit_take_of_le (by rwa [flipBit_length]))
  · obtain ⟨hsize, hframe⟩ := decodeFs_ok_iff.mp hok
    have h4 : 4 ≤ buf.length := by rw [hsize, fsLength, fsOverhead]; omega
    have hflip := decodeFs_eq_checkedFrame (p := params) (cfg := cfg) (buf := flipBit buf i j)
      (by rwa [flipBit_length])
    refine ⟨fun hver => ?_, fun hlen => ?_, fun h3 hcrc => ?_, fun hterm => ?_⟩
    · rw [hflip]; exact checkedFrame_flip_version hframe h4 hj hver
    · subst hlen; rw [hflip]; exact checkedFrame_flip_length hframe h4 hj
    · rw [hflip]; exact checkedFrame_flip_crc hframe h4 hj h3 hcrc
    · rw [← hok]
      exact decodeFs_congr_take (flipBit_length ..) (flipBit_take_of_le (by rwa [flipBit_length]))

/-! ### A packet cut short (70_reset_and_hazards.md section 3) -/

/-- A first piece that is not all is shorter. -/
theorem length_lt_of_proper_piece {piece buf : Buffer} (h : piece <+: buf) (hne : piece ≠ buf) :
    piece.length < buf.length :=
  lt_of_le_of_ne h.length_le fun heq => hne (h.eq_of_length heq)

/-- Settles O35: the piece still carries the whole packet's length byte, or is too short for a packet. -/
theorem cutPacketIsRejected : Obligations.CutPacketIsRejected := by
  refine ⟨fun p cfg buf piece m hok hpiece hne => ⟨fun hsmall => decodeSp_of_small hsmall, fun hbig => ?_⟩,
    fun p cfg buf piece ms hok hpiece hne => ?_⟩
  · have hshort := length_lt_of_proper_piece hpiece hne
    obtain ⟨-, hframe⟩ := decodeSp_ok_iff.mp hok
    obtain ⟨hlen, -⟩ := checkedFrame_ok_iff.mp hframe
    obtain ⟨rest, rfl⟩ := hpiece
    rw [byteAt_append_left (by omega)] at hlen
    rw [decodeSp_eq_checkedFrame hbig, checkedFrame_of_length_ne (getElem?_eq_some_byteAt (by omega)) (by omega),
      hlen]
    exact congrArg _ (BitVec.ofNat_toNat 16 _).symm
  · have hshort := length_lt_of_proper_piece hpiece hne
    obtain ⟨hsize, -⟩ := decodeFs_ok_iff.mp hok
    have hfull : buf.length = 7 + 4 * Cfg.fsK cfg := hsize
    rw [decodeFs_of_length_ne (by omega), hfull]

end Sys2Proof.Proofs
end

section
/-! The decoder and the encoder (30_encoding.md): each undoes the other, item by item. -/

namespace Sys2Proof.Proofs

open Machine Laws Safety

/-! ### Requests (30_encoding.md R82; log 8) -/

theorem needs_of_le {n : Nat} {op : Byte} {ops : Buffer} {r : Reading} (h : n ≤ ops.length) :
    needs n op ops r = r :=
  if_neg (not_lt.mpr h)

/-- A narrow operand in a byte of its own has no bit above its width. -/
theorem narrow_setWidth {w : Nat} (op : Byte) (x : BitVec w) (hw : w ≤ 8) (r : Reading) :
    narrow w op (x.setWidth 8) r = r := by
  refine if_pos ?_
  rw [BitVec.toNat_setWidth_of_le hw]
  exact x.isLt

/-- A narrow operand is read back from its byte. -/
theorem setWidth_setWidth_byte {w : Nat} (x : BitVec w) (hw : w ≤ 8) : (x.setWidth 8).setWidth w = x := by
  rw [BitVec.setWidth_setWidth_of_le _ hw, BitVec.setWidth_eq]

/-- A buffer operand is read back, with the operand bytes after it. -/
theorem bufferOperand_encodeBuffer {op : Byte} {buf after : Buffer} {k : Buffer → Reading} (h : bufferFits buf) :
    bufferOperand op (encodeBuffer buf ++ after) after.length k = k buf := by
  have hlen : (byteAt (encodeBuffer buf ++ after) 0).toNat = buf.length := by
    rw [encodeBuffer, List.cons_append, byteAt_cons_zero, BitVec.toNat_ofNat]
    exact Nat.mod_eq_of_lt (lt_of_le_of_lt h (by decide))
  have hall : (encodeBuffer buf ++ after).length = 1 + buf.length + after.length := by
    rw [encodeBuffer, List.length_append, List.length_cons]
    omega
  have hbuf : slice (encodeBuffer buf ++ after) 1 (1 + buf.length) = buf := by
    rw [slice_add, encodeBuffer, List.cons_append, List.drop_succ_cons, List.drop_zero, List.take_left]
  rw [bufferOperand, hlen, needs_of_le (by omega), needs_of_le (by omega), hbuf]

/-- The byte after a buffer operand. -/
theorem byteAt_after_encodeBuffer (buf : Buffer) (b : Byte) : byteAt (encodeBuffer buf ++ [b]) (1 + buf.length) = b := by
  apply byteAt_of_getElem?
  rw [encodeBuffer, List.cons_append, Nat.add_comm, List.getElem?_cons_succ, List.getElem?_append_right le_rfl,
    Nat.sub_self]
  rfl

theorem bufferOperand_encodeBuffer_only {op : Byte} {buf : Buffer} {k : Buffer → Reading} (h : bufferFits buf) :
    bufferOperand op (encodeBuffer buf) 0 k = k buf := by
  simpa using bufferOperand_encodeBuffer (op := op) (after := []) (k := k) h

/-- The request with an operation and its operand bytes. -/
theorem decodeInput_request (op : Byte) (ops : Buffer) : decodeInput (.request (op :: ops)) = decodeOp op ops := rfl

section

variable (ops : Buffer)

theorem decodeOp_crc16 : decodeOp 0x13 ops = bufferOperand 0x13 ops 0 (fun buf => .instr (.crc16 buf)) := rfl

theorem decodeOp_dec : decodeOp 0x40 ops = bufferOperand 0x40 ops 0 (fun buf => .instr (.dec buf)) := rfl

theorem decodeOp_fsDec : decodeOp 0x41 ops = bufferOperand 0x41 ops 0 (fun buf => .instr (.fsDec buf)) := rfl

theorem decodeOp_parse : decodeOp 0x21 ops = bufferOperand 0x21 ops 1 (fun buf =>
    narrow 2 0x21 (byteAt ops (1 + buf.length))
      (.instr (.parse buf ((byteAt ops (1 + buf.length)).setWidth 2)))) := rfl

theorem decodeOp_getp (b0 b1 : Byte) : decodeOp 0x20 [b0, b1] =
    narrow 4 0x20 b0 (narrow 2 0x20 b1 (.instr (.getp (b0.setWidth 4) (b1.setWidth 2)))) := rfl

theorem decodeOp_genp : decodeOp 0x22 ops = needs 10 0x22 ops (narrow 2 0x22 (byteAt ops 0)
    (narrow 4 0x22 (byteAt ops 1) (.instr (.genp ((byteAt ops 0).setWidth 2) ((byteAt ops 1).setWidth 4)
      ((memRead ops 2 8).setWidth 64))))) := rfl

theorem decodeOp_u16pk : decodeOp 0x23 ops =
    needs 4 0x23 ops (.instr (.u16pk ((memRead ops 0 4).setWidth 32))) := rfl

theorem decodeOp_enc : decodeOp 0x30 ops =
    needs 16 0x30 ops (.instr (.enc ((memRead ops 0 4).setWidth 32) ((memRead ops 4 4).setWidth 32)
      ((memRead ops 8 8).setWidth 64))) := rfl

end

theorem decode_crc16 {buf : Buffer} (h : bufferFits buf) :
    decodeInput (encode (.crc16 buf)) = .instr (.crc16 buf) := by
  rw [encode, decodeInput_request, decodeOp_crc16, bufferOperand_encodeBuffer_only h]

theorem decode_dec {buf : Buffer} (h : bufferFits buf) : decodeInput (encode (.dec buf)) = .instr (.dec buf) := by
  rw [encode, decodeInput_request, decodeOp_dec, bufferOperand_encodeBuffer_only h]

theorem decode_fsDec {buf : Buffer} (h : bufferFits buf) :
    decodeInput (encode (.fsDec buf)) = .instr (.fsDec buf) := by
  rw [encode, decodeInput_request, decodeOp_fsDec, bufferOperand_encodeBuffer_only h]

theorem decode_parse {buf : Buffer} (dt : BitVec 2) (h : bufferFits buf) :
    decodeInput (encode (.parse buf dt)) = .instr (.parse buf dt) := by
  rw [encode, decodeInput_request, decodeOp_parse,
    show (1 : Nat) = [dt.setWidth 8].length from rfl, bufferOperand_encodeBuffer h, List.length_singleton,
    byteAt_after_encodeBuffer, narrow_setWidth _ _ (by decide), setWidth_setWidth_byte _ (by decide)]

theorem decode_getp (size : BitVec 4) (dt : BitVec 2) :
    decodeInput (encode (.getp size dt)) = .instr (.getp size dt) := by
  rw [encode, decodeInput_request, decodeOp_getp, narrow_setWidth _ _ (by decide), narrow_setWidth _ _ (by decide),
    setWidth_setWidth_byte _ (by decide), setWidth_setWidth_byte _ (by decide)]

theorem decode_genp (dt : BitVec 2) (size : BitVec 4) (val : Val) :
    decodeInput (encode (.genp dt size val)) = .instr (.genp dt size val) := by
  have hval : memRead (dt.setWidth 8 :: size.setWidth 8 :: leBytes 8 val.toNat) 2 8 = val :=
    memRead_eq_of_bytesAt (n := 8) (v := val)
      (bytesAt_middle (a := [dt.setWidth 8, size.setWidth 8]) (c := []) (by simp) rfl (leBytes_length _ _))
  have h0 : byteAt (dt.setWidth 8 :: size.setWidth 8 :: leBytes 8 val.toNat) 0 = dt.setWidth 8 := rfl
  have h1 : byteAt (dt.setWidth 8 :: size.setWidth 8 :: leBytes 8 val.toNat) 1 = size.setWidth 8 := rfl
  rw [encode, decodeInput_request, decodeOp_genp, needs_of_le (by simp), hval, BitVec.setWidth_eq, h0, h1,
    narrow_setWidth _ _ (by decide), narrow_setWidth _ _ (by decide), setWidth_setWidth_byte _ (by decide),
    setWidth_setWidth_byte _ (by decide)]

theorem decode_u16pk (v : BitVec 32) : decodeInput (encode (.u16pk v)) = .instr (.u16pk v) := by
  have hv : memRead (leBytes 4 v.toNat) 0 4 = v :=
    memRead_eq_of_bytesAt (n := 4) (v := v) (bytesAt_whole (leBytes 4 v.toNat))
  rw [encode, decodeInput_request, decodeOp_u16pk, needs_of_le (by simp), hv, BitVec.setWidth_eq]

theorem decode_enc (seq mt : BitVec 32) (val : Val) :
    decodeInput (encode (.enc seq mt val)) = .instr (.enc seq mt val) := by
  have hseq : memRead (leBytes 4 seq.toNat ++ leBytes 4 mt.toNat ++ leBytes 8 val.toNat) 0 4 = seq :=
    memRead_eq_of_bytesAt (n := 4) (v := seq)
      (bytesAt_middle (a := []) (List.append_assoc ..) rfl (leBytes_length _ _))
  have hmt : memRead (leBytes 4 seq.toNat ++ leBytes 4 mt.toNat ++ leBytes 8 val.toNat) 4 4 = mt :=
    memRead_eq_of_bytesAt (n := 4) (v := mt)
      (bytesAt_middle (List.append_assoc ..) (leBytes_length _ _) (leBytes_length _ _))
  have hval : memRead (leBytes 4 seq.toNat ++ leBytes 4 mt.toNat ++ leBytes 8 val.toNat) 8 8 = val :=
    memRead_eq_of_bytesAt (n := 8) (v := val)
      (bytesAt_middle (a := leBytes 4 seq.toNat ++ leBytes 4 mt.toNat) (c := []) (by simp) (by simp)
        (leBytes_length _ _))
  rw [encode, decodeInput_request, decodeOp_enc, needs_of_le (by simp), hseq, hmt, hval, BitVec.setWidth_eq,
    BitVec.setWidth_eq, BitVec.setWidth_eq]

/-! ### The kind map (30_encoding.md R80) -/

/-- A cfg1 byte is its two halves: the msg_type and the row. -/
theorem nibbles_append (m r : BitVec 4) :
    (m ++ r : BitVec 8).extractLsb' 4 4 = m ∧ (m ++ r : BitVec 8).extractLsb' 0 4 = r := by
  revert m r
  decide

/-- The 256 cfg1 bytes, one by one. -/
theorem encode_decodeCfg1 (b : Byte) : encode (decodeCfg1 b) = .cfg1 b := by
  revert b
  decide

/-! ### Single packets (30_encoding.md R72) -/

/-- The fixed bits of a packet row. -/
theorem hasSpShape_iff {n : Nat} {szf : BitVec 2} {bytes : Buffer} : hasSpShape n szf bytes = true ↔
    bytes.length = spOverhead + n ∧ byteAt bytes 2 = BitVec.ofNat 8 (spOverhead + n) ∧
      cfg1Szf .lsb0 (byteAt bytes 5) = szf ∧ byteAt bytes (9 + n) = term0 ∧ byteAt bytes (10 + n) = term1 := by
  simp [hasSpShape, and_assoc]

theorem cfg1Pack_lsb0_unpack (b : Byte) : cfg1Pack .lsb0 (cfg1Mtf .lsb0 b) (cfg1Szf .lsb0 b) (cfg1Dtf .lsb0 b) = b := by
  revert b
  decide

/-- A frame with the fixed bits of a row is the packet of the fields read from it. -/
theorem spWire_of_hasSpShape {n : Nat} {szf : BitVec 2} {bytes : Buffer} (h : hasSpShape n szf bytes = true) :
    spWire (byteAt bytes 0) (byteAt bytes 1) n (memRead bytes 3 2)
      (cfg1Pack .lsb0 (cfg1Mtf .lsb0 (byteAt bytes 5)) szf (cfg1Dtf .lsb0 (byteAt bytes 5))) (byteAt bytes 6)
      (memRead bytes 7 n).toNat (memRead bytes (7 + n) 2) = bytes := by
  obtain ⟨hlen, h2, rfl, h9, h10⟩ := hasSpShape_iff.mp h
  have hcut : bytesAt bytes 0 3 ++ (bytesAt bytes 3 2 ++ (bytesAt bytes 5 2 ++ (bytesAt bytes 7 n ++
      (bytesAt bytes (7 + n) 2 ++ bytesAt bytes (7 + n + 2) 2)))) = bytes := by
    rw [← bytesAt_add, ← bytesAt_add bytes 7, ← bytesAt_add bytes 5, ← bytesAt_add bytes 3, ← bytesAt_add bytes 0,
      show 3 + (2 + (2 + (n + (2 + 2)))) = bytes.length by rw [hlen, spOverhead]; omega, bytesAt_whole]
  have hhead : bytesAt bytes 0 3 = [byteAt bytes 0, byteAt bytes 1, BitVec.ofNat 8 (spOverhead + n)] := h2 ▸ rfl
  have hterm : bytesAt bytes (7 + n + 2) 2 = [term0, term1] := by
    rw [show 7 + n + 2 = 9 + n by omega, ← h9, ← h10, show 10 + n = 9 + n + 1 by omega]
    rfl
  rw [spWire_eq_append, cfg1Pack_lsb0_unpack, leBytes_memRead, leBytes_memRead, leBytes_memRead, ← hhead, ← hterm]
  simp only [List.append_assoc]
  exact hcut

/-- Reading the payload of a row at the width its constructor has. -/
theorem spWire_memRead_payload (verb0 verb1 c c2 : Byte) {n : Nat} (seq crc : Half) (x : BitVec (8 * n)) :
    memRead (spWire verb0 verb1 n seq c c2 x.toNat crc) 7 n = x :=
  memRead_eq_of_bytesAt (spWire_bytesAt_payload ..)

/-- The header fields of a packet, read back. -/
theorem withSpHeader_spWire (verb0 verb1 c2 : Byte) (n : Nat) (seq crc : Half) (m : BitVec 4) (szf d : BitVec 2)
    (payload : Nat) (k : Byte → Byte → Half → BitVec 4 → BitVec 2 → Byte → Instr) :
    withSpHeader (spWire verb0 verb1 n seq (cfg1Pack .lsb0 m szf d) c2 payload crc) k =
      .instr (k verb0 verb1 seq m d c2) := by
  obtain ⟨hm, -, hd⟩ := cfg1_unpack .lsb0 m szf d
  have h0 : byteAt (spWire verb0 verb1 n seq (cfg1Pack .lsb0 m szf d) c2 payload crc) 0 = verb0 := rfl
  have h1 : byteAt (spWire verb0 verb1 n seq (cfg1Pack .lsb0 m szf d) c2 payload crc) 1 = verb1 := rfl
  have h5 : byteAt (spWire verb0 verb1 n seq (cfg1Pack .lsb0 m szf d) c2 payload crc) 5 = cfg1Pack .lsb0 m szf d :=
    rfl
  have h6 : byteAt (spWire verb0 verb1 n seq (cfg1Pack .lsb0 m szf d) c2 payload crc) 6 = c2 := rfl
  rw [withSpHeader, h0, h1, h5, h6, hm, hd, spWire_memRead_seq, BitVec.setWidth_eq]

section

variable {bytes : Buffer}

/-- A row's shape fixes the length, so that no other row has it. -/
theorem hasSpShape_other {n n' : Nat} {szf szf' : BitVec 2} (h : hasSpShape n szf bytes = true) (hne : n ≠ n') :
    ¬ hasSpShape n' szf' bytes = true := by
  intro h'
  obtain ⟨hlen, -⟩ := hasSpShape_iff.mp h
  obtain ⟨hlen', -⟩ := hasSpShape_iff.mp h'
  omega

theorem decodeSpFrame_of_shape1 (h : hasSpShape 1 0 bytes = true) :
    decodeSpFrame bytes = withSpHeader bytes (fun v w s m d c =>
      .spPkt1 v w s m d c (memRead bytes 7 1) (memRead bytes 8 2)) := by
  simp only [decodeSpFrame, if_pos h, BitVec.setWidth_eq]

theorem decodeSpFrame_of_shape2 (h : hasSpShape 2 1 bytes = true) :
    decodeSpFrame bytes = withSpHeader bytes (fun v w s m d c =>
      .spPkt2 v w s m d c (memRead bytes 7 2) (memRead bytes 9 2)) := by
  have h1 : ¬ hasSpShape 1 0 bytes = true := hasSpShape_other h (by decide)
  simp only [decodeSpFrame, if_neg h1, if_pos h, BitVec.setWidth_eq]

theorem decodeSpFrame_of_shape4 (h : hasSpShape 4 2 bytes = true) :
    decodeSpFrame bytes = withSpHeader bytes (fun v w s m d c =>
      .spPkt4 v w s m d c (memRead bytes 7 4) (memRead bytes 11 2)) := by
  have h1 : ¬ hasSpShape 1 0 bytes = true := hasSpShape_other h (by decide)
  have h2 : ¬ hasSpShape 2 1 bytes = true := hasSpShape_other h (by decide)
  simp only [decodeSpFrame, if_neg h1, if_neg h2, if_pos h, BitVec.setWidth_eq]

theorem decodeSpFrame_of_shape8 (h : hasSpShape 8 3 bytes = true) :
    decodeSpFrame bytes = withSpHeader bytes (fun v w s m d c =>
      .spPkt8 v w s m d c (memRead bytes 7 8) (memRead bytes 15 2)) := by
  have h1 : ¬ hasSpShape 1 0 bytes = true := hasSpShape_other h (by decide)
  have h2 : ¬ hasSpShape 2 1 bytes = true := hasSpShape_other h (by decide)
  have h4 : ¬ hasSpShape 4 2 bytes = true := hasSpShape_other h (by decide)
  simp only [decodeSpFrame, if_neg h1, if_neg h2, if_neg h4, if_pos h, BitVec.setWidth_eq]

/-- A frame of no row's shape is handed to DEC whole (log 7), if BUF_CAP admits it. -/
theorem eq_dec_of_no_shape {i : Instr} (h1 : ¬ hasSpShape 1 0 bytes = true) (h2 : ¬ hasSpShape 2 1 bytes = true)
    (h4 : ¬ hasSpShape 4 2 bytes = true) (h8 : ¬ hasSpShape 8 3 bytes = true)
    (h : decodeSpFrame bytes = .instr i) : i = .dec bytes := by
  rw [decodeSpFrame, if_neg h1, if_neg h2, if_neg h4, if_neg h8] at h
  split at h
  · cases h; rfl
  · cases h

/-- A frame that reads as a packet row is the encoding of that row. -/
theorem encode_decodeSpFrame {i : Instr} (h : decodeSpFrame bytes = .instr i) :
    encode i = .spFrame bytes ∨ i = .dec bytes := by
  by_cases h1 : hasSpShape 1 0 bytes = true
  · rw [decodeSpFrame_of_shape1 h1, withSpHeader, BitVec.setWidth_eq] at h
    cases h
    exact .inl (congrArg _ (spWire_of_hasSpShape h1))
  by_cases h2 : hasSpShape 2 1 bytes = true
  · rw [decodeSpFrame_of_shape2 h2, withSpHeader, BitVec.setWidth_eq] at h
    cases h
    exact .inl (congrArg _ (spWire_of_hasSpShape h2))
  by_cases h4 : hasSpShape 4 2 bytes = true
  · rw [decodeSpFrame_of_shape4 h4, withSpHeader, BitVec.setWidth_eq] at h
    cases h
    exact .inl (congrArg _ (spWire_of_hasSpShape h4))
  by_cases h8 : hasSpShape 8 3 bytes = true
  · rw [decodeSpFrame_of_shape8 h8, withSpHeader, BitVec.setWidth_eq] at h
    cases h
    exact .inl (congrArg _ (spWire_of_hasSpShape h8))
  exact .inr (eq_dec_of_no_shape h1 h2 h4 h8 h)

end

section

variable (verb0 verb1 c2 : Byte) (seq crc : Half) (m : BitVec 4) (d : BitVec 2)

theorem decode_spPkt1 (x : BitVec 8) : decodeInput (encode (.spPkt1 verb0 verb1 seq m d c2 x crc)) =
    .instr (.spPkt1 verb0 verb1 seq m d c2 x crc) := by
  rw [encode, decodeInput, decodeSpFrame_of_shape1 spWire_shape, withSpHeader_spWire,
    spWire_memRead_payload (n := 1) (x := x), spWire_memRead_crc]

theorem decode_spPkt2 (x : BitVec 16) : decodeInput (encode (.spPkt2 verb0 verb1 seq m d c2 x crc)) =
    .instr (.spPkt2 verb0 verb1 seq m d c2 x crc) := by
  rw [encode, decodeInput, decodeSpFrame_of_shape2 spWire_shape, withSpHeader_spWire,
    spWire_memRead_payload (n := 2) (x := x), spWire_memRead_crc]

theorem decode_spPkt4 (x : BitVec 32) : decodeInput (encode (.spPkt4 verb0 verb1 seq m d c2 x crc)) =
    .instr (.spPkt4 verb0 verb1 seq m d c2 x crc) := by
  rw [encode, decodeInput, decodeSpFrame_of_shape4 spWire_shape, withSpHeader_spWire,
    spWire_memRead_payload (n := 4) (x := x), spWire_memRead_crc]

theorem decode_spPkt8 (x : BitVec 64) : decodeInput (encode (.spPkt8 verb0 verb1 seq m d c2 x crc)) =
    .instr (.spPkt8 verb0 verb1 seq m d c2 x crc) := by
  rw [encode, decodeInput, decodeSpFrame_of_shape8 spWire_shape, withSpHeader_spWire,
    spWire_memRead_payload (n := 8) (x := x), spWire_memRead_crc]

end

/-! ### Float-sequence packets (30_encoding.md R78) -/

theorem fieldCount_fsLength (k : Nat) : fieldCount (fsLength k) = k := by
  rw [fieldCount, fsLength, fsOverhead, fsField]
  omega

/-- The fixed bits of the float-sequence row. -/
theorem hasFsShape_iff {bytes : Buffer} : hasFsShape bytes = true ↔
    bytes.length = fsLength (fieldCount bytes.length) ∧ byteAt bytes (bytes.length - 2) = term0 ∧
      byteAt bytes (bytes.length - 1) = term1 := by
  simp [hasFsShape, and_assoc]

theorem decodeFsFrame_of_shape {bytes : Buffer} (hlen : bytes.length ≤ bufCap) (h : hasFsShape bytes = true) :
    decodeFsFrame bytes = .instr (.fsPkt (byteAt bytes 0) (byteAt bytes 1) (byteAt bytes 2)
      (fieldsAt bytes 3 (fieldCount bytes.length)) (memRead bytes (bytes.length - 4) 2)) := by
  rw [decodeFsFrame, if_neg (not_lt.mpr hlen), if_pos h, BitVec.setWidth_eq]

/-- A frame with the fixed bits of the row is the packet of the fields read from it. -/
theorem fsWire_of_hasFsShape {bytes : Buffer} (h : hasFsShape bytes = true) :
    fsWire (byteAt bytes 0) (byteAt bytes 1) (byteAt bytes 2) (fieldsAt bytes 3 (fieldCount bytes.length))
      (memRead bytes (bytes.length - 4) 2) = bytes := by
  obtain ⟨hlen, hterm0, hterm1⟩ := hasFsShape_iff.mp h
  generalize fieldCount bytes.length = k at hlen ⊢
  rw [fsLength, fsOverhead, fsField] at hlen
  rw [show bytes.length - 2 = 3 + 4 * k + 2 by omega] at hterm0
  rw [show bytes.length - 1 = 3 + 4 * k + 2 + 1 by omega] at hterm1
  rw [show bytes.length - 4 = 3 + 4 * k by omega]
  have hcut : bytesAt bytes 0 3 ++ (bytesAt bytes 3 (4 * k) ++ (bytesAt bytes (3 + 4 * k) 2 ++
      bytesAt bytes (3 + 4 * k + 2) 2)) = bytes := by
    rw [← bytesAt_add, ← bytesAt_add bytes 3, ← bytesAt_add bytes 0,
      show 3 + (4 * k + (2 + 2)) = bytes.length by omega, bytesAt_whole]
  have hterm : bytesAt bytes (3 + 4 * k + 2) 2 = [term0, term1] := by
    rw [← hterm0, ← hterm1]
    rfl
  have hhead : bytesAt bytes 0 3 = [byteAt bytes 0, byteAt bytes 1, byteAt bytes 2] := rfl
  rw [fsWire, withTrailer, fsBody, flatMap_fieldsAt, leBytes_memRead, ← hterm, ← hhead]
  simp only [List.append_assoc]
  exact hcut

/-- A frame that reads as the packet row is the encoding of that row. -/
theorem encode_decodeFsFrame {bytes : Buffer} {i : Instr} (h : decodeFsFrame bytes = .instr i) :
    encode i = .fsFrame bytes ∨ i = .fsDec bytes := by
  by_cases hlen : bytes.length ≤ bufCap
  · by_cases hshape : hasFsShape bytes = true
    · rw [decodeFsFrame_of_shape hlen hshape] at h
      cases h
      exact .inl (congrArg _ (fsWire_of_hasFsShape hshape))
    · rw [decodeFsFrame, if_neg (not_lt.mpr hlen), if_neg hshape] at h
      cases h
      exact .inr rfl
  · rw [decodeFsFrame, if_pos (not_le.mp hlen)] at h
    cases h

theorem decode_fsPkt {verb0 verb1 lenb : Byte} {flds : List (BitVec 32)} {crc : Half} (h : fieldsFit flds) :
    decodeInput (encode (.fsPkt verb0 verb1 lenb flds crc)) = .instr (.fsPkt verb0 verb1 lenb flds crc) := by
  have hlen : (fsWire verb0 verb1 lenb flds crc).length ≤ bufCap := by rwa [fsWire_length]
  have hcrc : memRead (fsWire verb0 verb1 lenb flds crc) ((fsWire verb0 verb1 lenb flds crc).length - 4) 2 = crc :=
    withTrailer_memRead_crc _ crc
  have h0 : byteAt (fsWire verb0 verb1 lenb flds crc) 0 = verb0 := rfl
  have h1 : byteAt (fsWire verb0 verb1 lenb flds crc) 1 = verb1 := rfl
  have h2 : byteAt (fsWire verb0 verb1 lenb flds crc) 2 = lenb := rfl
  rw [encode, decodeInput, decodeFsFrame_of_shape hlen (fsWire_shape ..), hcrc, h0, h1, h2, fsWire_length,
    fieldCount_fsLength, fieldsAt_fsWire]

/-! ### All items -/

/-- Settles O53: each row by its own lemma; the requests without operands, or with operands of a byte each, by
evaluation, the kind map by the halves of its byte. -/
theorem decodeInvertsEncode : Obligations.DecodeInvertsEncode := by
  intro i hi
  cases i
  case crcInit | crcUpd | crcFin | u16up | fsEnc | rxByte | rxFlush => rfl
  case crc16 buf => exact decode_crc16 (of_decide_eq_true hi)
  case getp size dt => exact decode_getp size dt
  case parse buf dt => exact decode_parse dt (of_decide_eq_true hi)
  case genp dt size val => exact decode_genp dt size val
  case u16pk v => exact decode_u16pk v
  case enc seq mt val => exact decode_enc seq mt val
  case dec buf => exact decode_dec (of_decide_eq_true hi)
  case fsDec buf => exact decode_fsDec (of_decide_eq_true hi)
  case spPkt1 => exact decode_spPkt1 ..
  case spPkt2 => exact decode_spPkt2 ..
  case spPkt4 => exact decode_spPkt4 ..
  case spPkt8 => exact decode_spPkt8 ..
  case fsPkt => exact decode_fsPkt (of_decide_eq_true hi)
  all_goals
    rw [encode, decodeInput, decodeCfg1, (nibbles_append _ _).1, (nibbles_append _ _).2]
    rfl

/-- Settles O54. -/
theorem encodeInvertsDecodeOnTheWire : Obligations.EncodeInvertsDecodeOnTheWire :=
  ⟨encode_decodeCfg1, fun _ _ => encode_decodeSpFrame, fun _ _ => encode_decodeFsFrame⟩

/-- Settles O52: a step is refused on a malformed item alone, and the encoding of a well-formed instruction is
none. -/
theorem onlyMalformedItemsStop : Obligations.OnlyMalformedItemsStop := by
  refine ⟨fun s r => ⟨fun h => ?_, ?_⟩, fun s f h => ?_, fun i s rest hi hp => ?_⟩
  · obtain ⟨t, ht⟩ | ⟨item, rest, b, hp, hd, hbad⟩ := step_next_or_refused s
    · cases ht.symm.trans h
    · cases hbad.symm.trans h
      exact ⟨item, rest, b, hp, hd, rfl⟩
  · rintro ⟨item, rest, b, hp, hd, rfl⟩
    exact step_bad hp hd
  · cases f
  · obtain ⟨t, ht⟩ := exec_total i { s with pending := rest }
    exact ⟨t, (step_instr hp (decodeInvertsEncode i hi)).trans ht, exec_pending ht⟩

end Sys2Proof.Proofs
end
